-- ==== Sys2Proof/Word.lean ====
section
/-! DEFINITION. The word types of CYM-CORE: every register, parameter and buffer word is 32 bits
(spec 10_state.md R31, 20_memory.md R82, R84); the host bus has four byte lanes (R85). -/

namespace Sys2Proof

/-- A 32-bit word: a data register, a parameter, a buffer word, a command word, or the IEEE 754 binary32
bit pattern of a sample (00_scope.md R7, R22). -/
abbrev Word := BitVec 32

/-- One byte lane of the host bus (20_memory.md R85). -/
abbrev Byte := BitVec 8

/-- A data-register number: the 4-bit fields RD, RS1, RS2 (30_encoding.md R101, 10_state.md R31). -/
abbrev Reg := Fin 16

end Sys2Proof
end

