-- ==== Sys2Proof/Syntax.lean ====
section
/-! DEFINITION. The commands of CYM-CORE: one constructor for each row of spec/opcode_table.json
(30_encoding.md R107). Register fields are `Reg`; the instance number and the parameter number are the
unsigned numbers of 30_encoding.md R102, R103, held to their field's width by WellFormed.lean. -/

namespace Sys2Proof

/-- A decoded command. `n` is INST, `d` is RD, `s1` and `s2` are RS1 and RS2, `u` and `p` the unit class and
parameter index in FN, `g` the gate FN[0] (30_encoding.md R101 to R105). -/
inductive Instr where
  | nop
  | reset
  | prep     (s1 : Reg)
  | pset     (n : Nat) (s1 : Reg) (u p : Nat)
  | pget     (n : Nat) (d : Reg) (u p : Nat)
  | svfLp    (n : Nat) (d s1 : Reg)
  | svfBp    (n : Nat) (d s1 : Reg)
  | svfHp    (n : Nat) (d s1 : Reg)
  | svfNotch (n : Nat) (d s1 : Reg)
  | lad      (n : Nat) (d s1 : Reg)
  | rev      (n : Nat) (d s1 : Reg)
  | dly      (n : Nat) (d s1 : Reg)
  | dlysz    (n : Nat) (s1 : Reg)
  | cho      (n : Nat) (d s1 : Reg)
  | wt       (n : Nat) (d s1 : Reg)
  | fm       (n : Nat) (d s1 s2 : Reg)
  | ks       (n : Nat) (d s1 : Reg)
  | ksf      (n : Nat) (s1 : Reg)
  | env      (n : Nat) (d : Reg) (g : Bool)
  | lfo      (n : Nat) (d : Reg)
  | fadd     (d s1 s2 : Reg)
  | fmul     (d s1 s2 : Reg)
  | sclip    (d s1 : Reg)
deriving DecidableEq, Repr

end Sys2Proof
end

