-- ==== Sys2Proof/WellFormed.lean ====
section
/-! DEFINITION. Which instruction terms a command word can carry: INST has 4 bits, the unit class `u` 4 bits and
the parameter index `p` 6 bits (30_encoding.md R101, R103). Register fields fit by their type. Whether the
instance or the parameter EXISTS is no matter of form: it is checked at execution (R109). -/

namespace Sys2Proof

/-- INST is a 4-bit field (30_encoding.md R101). -/
abbrev instFits (n : Nat) : Prop := n < 16

/-- FN of PSET and PGET is `{u[3:0], p[5:0]}` (30_encoding.md R103, R112). -/
abbrev paramFits (u p : Nat) : Prop := u < 16 ∧ p < 64

/-- The instruction has a command word. -/
def Instr.wellFormed : Instr → Bool
  | .nop => true
  | .reset => true
  | .prep _ => true
  | .pset n _ u p => instFits n ∧ paramFits u p
  | .pget n _ u p => instFits n ∧ paramFits u p
  | .svfLp n _ _ => instFits n
  | .svfBp n _ _ => instFits n
  | .svfHp n _ _ => instFits n
  | .svfNotch n _ _ => instFits n
  | .lad n _ _ => instFits n
  | .rev n _ _ => instFits n
  | .dly n _ _ => instFits n
  | .dlysz n _ => instFits n
  | .cho n _ _ => instFits n
  | .wt n _ _ => instFits n
  | .fm n _ _ _ => instFits n
  | .ks n _ _ => instFits n
  | .ksf n _ => instFits n
  | .env n _ _ => instFits n
  | .lfo n _ => instFits n
  | .fadd _ _ _ => true
  | .fmul _ _ _ => true
  | .sclip _ _ => true

end Sys2Proof
end

