-- ==== Sys2Proof/Decode.lean ====
section
/-! DEFINITION. The command word: its fields (30_encoding.md R101 to R105), the decoder of R106 over the masks and
matches of R107, total on every word and rejecting by name, and after it the encoder, written from the same
rows. The byte lanes of the host bus (20_memory.md R85) are here as well. -/

namespace Sys2Proof

/-! ### Byte lanes -/

/-- Lane `k` carries bits `8k+7 : 8k` (20_memory.md R85). -/
def lanesOfWord (w : Word) : List Byte :=
  [w.extractLsb' 0 8, w.extractLsb' 8 8, w.extractLsb' 16 8, w.extractLsb' 24 8]

/-- The 32-bit word on four lanes, lane 0 the least significant (20_memory.md R85); `none` when the access is
not four lanes wide. -/
def wordOfLanes : List Byte → Option Word
  | [b0, b1, b2, b3] => some (b3 ++ b2 ++ b1 ++ b0)
  | _ => none

/-! ### Fields (30_encoding.md R101) -/

/-- OP = w[31:26]. -/
def opField (w : Word) : BitVec 6 := w.extractLsb' 26 6
/-- INST = w[25:22], an unsigned number (R102). -/
def instField (w : Word) : Nat := (w.extractLsb' 22 4).toNat
/-- RD = w[21:18]. -/
def rdField (w : Word) : Reg := (w.extractLsb' 18 4).toFin
/-- RS1 = w[17:14]. -/
def rs1Field (w : Word) : Reg := (w.extractLsb' 14 4).toFin
/-- RS2 = w[13:10]. -/
def rs2Field (w : Word) : Reg := (w.extractLsb' 10 4).toFin
/-- `u` = w[9:6] of PSET and PGET (R103). -/
def classField (w : Word) : Nat := (w.extractLsb' 6 4).toNat
/-- `p` = w[5:0] of PSET and PGET (R103). -/
def indexField (w : Word) : Nat := (w.extractLsb' 0 6).toNat
/-- `sel` = w[1:0] of the SVF commands (R104). -/
def selField (w : Word) : BitVec 2 := w.extractLsb' 0 2
/-- `g` = w[0] of ENV (R105). -/
def gateField (w : Word) : Bool := w.getLsbD 0

/-! ### Decoding -/

/-- Why a word is no command; either way E_ILLEGAL_OP is raised (30_encoding.md R106, R108). -/
inductive DecodeReject where
  /-- The opcode is not in the map of R107. -/
  | reservedOpcode
  /-- A must-be-zero field is nonzero. -/
  | mustBeZero
deriving DecidableEq, Repr

/-- The mask test of 30_encoding.md R106: `(w AND mask) = match`, else a must-be-zero field is nonzero. -/
def masked (w mask pattern : Word) (i : Instr) : Except DecodeReject Instr :=
  if w &&& mask = pattern then .ok i else .error .mustBeZero

/-- The four rows of opcode 0x08, told apart by FN[1:0] (30_encoding.md R104, R106). -/
def decodeSvf (w : Word) : Except DecodeReject Instr :=
  match selField w with
  | 0 => masked w 0xFC003FFF 0x20000000 (.svfLp (instField w) (rdField w) (rs1Field w))
  | 1 => masked w 0xFC003FFF 0x20000001 (.svfBp (instField w) (rdField w) (rs1Field w))
  | 2 => masked w 0xFC003FFF 0x20000002 (.svfHp (instField w) (rdField w) (rs1Field w))
  | 3 => masked w 0xFC003FFF 0x20000003 (.svfNotch (instField w) (rdField w) (rs1Field w))

/-- `decode(w)` of 30_encoding.md R106 over the map of R107. -/
def decode (w : Word) : Except DecodeReject Instr :=
  match opField w with
  | 0x00 => masked w 0xFFFFFFFF 0x00000000 .nop
  | 0x01 => masked w 0xFFFFFFFF 0x04000000 .reset
  | 0x02 => masked w 0xFFFC3FFF 0x08000000 (.prep (rs1Field w))
  | 0x03 => masked w 0xFC3C3C00 0x0C000000 (.pset (instField w) (rs1Field w) (classField w) (indexField w))
  | 0x04 => masked w 0xFC03FC00 0x10000000 (.pget (instField w) (rdField w) (classField w) (indexField w))
  | 0x08 => decodeSvf w
  | 0x09 => masked w 0xFC003FFF 0x24000000 (.lad (instField w) (rdField w) (rs1Field w))
  | 0x0C => masked w 0xFC003FFF 0x30000000 (.rev (instField w) (rdField w) (rs1Field w))
  | 0x10 => masked w 0xFC003FFF 0x40000000 (.dly (instField w) (rdField w) (rs1Field w))
  | 0x11 => masked w 0xFC3C3FFF 0x44000000 (.dlysz (instField w) (rs1Field w))
  | 0x12 => masked w 0xFC003FFF 0x48000000 (.cho (instField w) (rdField w) (rs1Field w))
  | 0x14 => masked w 0xFC003FFF 0x50000000 (.wt (instField w) (rdField w) (rs1Field w))
  | 0x18 => masked w 0xFC0003FF 0x60000000 (.fm (instField w) (rdField w) (rs1Field w) (rs2Field w))
  | 0x1C => masked w 0xFC003FFF 0x70000000 (.ks (instField w) (rdField w) (rs1Field w))
  | 0x1D => masked w 0xFC3C3FFF 0x74000000 (.ksf (instField w) (rs1Field w))
  | 0x20 => masked w 0xFC03FFFE 0x80000000 (.env (instField w) (rdField w) (gateField w))
  | 0x21 => masked w 0xFC03FFFF 0x84000000 (.lfo (instField w) (rdField w))
  | 0x28 => masked w 0xFFC003FF 0xA0000000 (.fadd (rdField w) (rs1Field w) (rs2Field w))
  | 0x29 => masked w 0xFFC003FF 0xA4000000 (.fmul (rdField w) (rs1Field w) (rs2Field w))
  | 0x2A => masked w 0xFFC03FFF 0xA8000000 (.sclip (rdField w) (rs1Field w))
  | _ => .error .reservedOpcode

/-- The instruction the decoder reads from a table row's bits: `nbits` bits of `w`, every bit above them 0, laid
on the host bus's four lanes and taken off them again (20_memory.md R85). -/
def decodeTableWord (nbits w : Nat) : Option Instr :=
  match wordOfLanes (lanesOfWord (BitVec.ofNat 32 (w % 2 ^ nbits))) with
  | some v =>
    match decode v with
    | .ok i => some i
    | .error _ => none
  | none => none

/-! ### Encoding -/

/-- `{OP, INST, RD, RS1, RS2, FN}` (30_encoding.md R101). -/
def packWord (op : BitVec 6) (inst rd rs1 rs2 : BitVec 4) (fn : BitVec 10) : Word :=
  op ++ inst ++ rd ++ rs1 ++ rs2 ++ fn

/-- A register number as its 4-bit field. -/
def regBits (r : Reg) : BitVec 4 := BitVec.ofFin r

/-- An instance number as its 4-bit field. -/
def instBits (n : Nat) : BitVec 4 := BitVec.ofNat 4 n

/-- FN of PSET and PGET, `{u[3:0], p[5:0]}` (30_encoding.md R112). -/
def paramBits (u p : Nat) : BitVec 10 := BitVec.ofNat 4 u ++ BitVec.ofNat 6 p

/-- The opcode of an instruction (30_encoding.md R107, column OP). -/
def Instr.opcode : Instr → BitVec 6
  | .nop => 0x00
  | .reset => 0x01
  | .prep _ => 0x02
  | .pset _ _ _ _ => 0x03
  | .pget _ _ _ _ => 0x04
  | .svfLp _ _ _ => 0x08
  | .svfBp _ _ _ => 0x08
  | .svfHp _ _ _ => 0x08
  | .svfNotch _ _ _ => 0x08
  | .lad _ _ _ => 0x09
  | .rev _ _ _ => 0x0C
  | .dly _ _ _ => 0x10
  | .dlysz _ _ => 0x11
  | .cho _ _ _ => 0x12
  | .wt _ _ _ => 0x14
  | .fm _ _ _ _ => 0x18
  | .ks _ _ _ => 0x1C
  | .ksf _ _ => 0x1D
  | .env _ _ _ => 0x20
  | .lfo _ _ => 0x21
  | .fadd _ _ _ => 0x28
  | .fmul _ _ _ => 0x29
  | .sclip _ _ => 0x2A

/-- The command word of an instruction, every unused field zero (30_encoding.md R101, R107, R111). -/
def encode : Instr → Word
  | .nop => packWord 0x00 0 0 0 0 0
  | .reset => packWord 0x01 0 0 0 0 0
  | .prep s1 => packWord 0x02 0 0 (regBits s1) 0 0
  | .pset n s1 u p => packWord 0x03 (instBits n) 0 (regBits s1) 0 (paramBits u p)
  | .pget n d u p => packWord 0x04 (instBits n) (regBits d) 0 0 (paramBits u p)
  | .svfLp n d s1 => packWord 0x08 (instBits n) (regBits d) (regBits s1) 0 0
  | .svfBp n d s1 => packWord 0x08 (instBits n) (regBits d) (regBits s1) 0 1
  | .svfHp n d s1 => packWord 0x08 (instBits n) (regBits d) (regBits s1) 0 2
  | .svfNotch n d s1 => packWord 0x08 (instBits n) (regBits d) (regBits s1) 0 3
  | .lad n d s1 => packWord 0x09 (instBits n) (regBits d) (regBits s1) 0 0
  | .rev n d s1 => packWord 0x0C (instBits n) (regBits d) (regBits s1) 0 0
  | .dly n d s1 => packWord 0x10 (instBits n) (regBits d) (regBits s1) 0 0
  | .dlysz n s1 => packWord 0x11 (instBits n) 0 (regBits s1) 0 0
  | .cho n d s1 => packWord 0x12 (instBits n) (regBits d) (regBits s1) 0 0
  | .wt n d s1 => packWord 0x14 (instBits n) (regBits d) (regBits s1) 0 0
  | .fm n d s1 s2 => packWord 0x18 (instBits n) (regBits d) (regBits s1) (regBits s2) 0
  | .ks n d s1 => packWord 0x1C (instBits n) (regBits d) (regBits s1) 0 0
  | .ksf n s1 => packWord 0x1D (instBits n) 0 (regBits s1) 0 0
  | .env n d g => packWord 0x20 (instBits n) (regBits d) 0 0 (if g then 1 else 0)
  | .lfo n d => packWord 0x21 (instBits n) (regBits d) 0 0 0
  | .fadd d s1 s2 => packWord 0x28 0 (regBits d) (regBits s1) (regBits s2) 0
  | .fmul d s1 s2 => packWord 0x29 0 (regBits d) (regBits s1) (regBits s2) 0
  | .sclip d s1 => packWord 0x2A 0 (regBits d) (regBits s1) 0 0

/-- The mnemonic of an instruction (30_encoding.md R107). -/
def Instr.mnemonic : Instr → String
  | .nop => "NOP"
  | .reset => "RESET"
  | .prep _ => "PREP"
  | .pset _ _ _ _ => "PSET"
  | .pget _ _ _ _ => "PGET"
  | .svfLp _ _ _ => "SVF.LP"
  | .svfBp _ _ _ => "SVF.BP"
  | .svfHp _ _ _ => "SVF.HP"
  | .svfNotch _ _ _ => "SVF.NOTCH"
  | .lad _ _ _ => "LAD"
  | .rev _ _ _ => "REV"
  | .dly _ _ _ => "DLY"
  | .dlysz _ _ => "DLYSZ"
  | .cho _ _ _ => "CHO"
  | .wt _ _ _ => "WT"
  | .fm _ _ _ _ => "FM"
  | .ks _ _ _ => "KS"
  | .ksf _ _ => "KSF"
  | .env _ _ _ => "ENV"
  | .lfo _ _ => "LFO"
  | .fadd _ _ _ => "FADD"
  | .fmul _ _ _ => "FMUL"
  | .sclip _ _ => "SCLIP"

/-- The opcode map of 30_encoding.md R107 as data: mnemonic, match, mask. -/
def opcodeMap : List (String × Word × Word) :=
  [("NOP", 0x00000000, 0xFFFFFFFF), ("RESET", 0x04000000, 0xFFFFFFFF), ("PREP", 0x08000000, 0xFFFC3FFF),
   ("PSET", 0x0C000000, 0xFC3C3C00), ("PGET", 0x10000000, 0xFC03FC00), ("SVF.LP", 0x20000000, 0xFC003FFF),
   ("SVF.BP", 0x20000001, 0xFC003FFF), ("SVF.HP", 0x20000002, 0xFC003FFF), ("SVF.NOTCH", 0x20000003, 0xFC003FFF),
   ("LAD", 0x24000000, 0xFC003FFF), ("REV", 0x30000000, 0xFC003FFF), ("DLY", 0x40000000, 0xFC003FFF)] ++
  [("DLYSZ", 0x44000000, 0xFC3C3FFF), ("CHO", 0x48000000, 0xFC003FFF), ("WT", 0x50000000, 0xFC003FFF),
   ("FM", 0x60000000, 0xFC0003FF), ("KS", 0x70000000, 0xFC003FFF), ("KSF", 0x74000000, 0xFC3C3FFF),
   ("ENV", 0x80000000, 0xFC03FFFE), ("LFO", 0x84000000, 0xFC03FFFF), ("FADD", 0xA0000000, 0xFFC003FF),
   ("FMUL", 0xA4000000, 0xFFC003FF), ("SCLIP", 0xA8000000, 0xFFC03FFF)]

end Sys2Proof
end

