-- ==== Sys2Proof/Config.lean ====
section
/-! DEFINITION. What one built CYM-CORE fixes (00_scope.md R6) as plain data, and the free values of the
model: constants without a body, of which no proof can see a value. The reference values of R6 are in
Machine/ResetValues.lean. -/

namespace Sys2Proof

/-- The instance counts `N_*` of 00_scope.md R6. `N_REV` is exactly 1 and has no field. A state holds a count
as the length of the unit's list (notes/assumptions/5.md). -/
structure Counts where
  svf : Nat
  lad : Nat
  dly : Nat
  cho : Nat
  wt  : Nat
  fm  : Nat
  ks  : Nat
  env : Nat
  lfo : Nat
deriving DecidableEq, Repr

/-- Which pair `sinF`, `tanhF` the build holds (00_scope.md R6, R13): the reference pair (correctly rounded),
or some other pair, number `k`, of which nothing but R13 (a) to (e) is known. -/
inductive Trig where
  | reference
  | other (k : Nat)
deriving DecidableEq, Repr

/-- The wavetable contents `WT_ROM` of the build (00_scope.md R6): the reference construction of
44_wavetable.md R241, or the words themselves, one row a table. -/
inductive WtRom where
  | reference
  | words (rows : List (List Word))
deriving DecidableEq, Repr

/-- The constants of one build (00_scope.md R6), but for the instance counts. -/
structure Build where
  numTables : Nat
  tableSize : Nat
  wtHstep   : Nat
  wtRom     : WtRom
  dlyMax    : Nat
  ksMax     : Nat
  combLen   : Vector Nat 8
  apLen     : Vector Nat 4
  trig      : Trig
deriving DecidableEq, Repr

/-- `CHO_SIZE`: CYM's "fixed 4096-sample ring buffer" (00_scope.md R6). -/
def Config.choSize : Nat := 4096

/-- The ID word (10_state.md R35). -/
def Config.idWord : Word := 0x43594D01

/-- FREE VALUE. The sine of build `other k`; Machine/Trig.lean holds it to 00_scope.md R13
(notes/assumptions/2.md). -/
opaque Config.sinOther : Nat → Word → Word

/-- FREE VALUE. The hyperbolic tangent of build `other k`; Machine/Trig.lean holds it to 00_scope.md R13
(notes/assumptions/2.md). -/
opaque Config.tanhOther : Nat → Word → Word

/-- FREE VALUE. The bits of a NaN that a binary32 operation produces: 93_implementation_defined.md I25, "any
value among the NaN bit patterns". Drawn afresh for draw number `draw` and operation `site` of that command
(notes/assumptions/1.md). -/
opaque Config.freeNaN : (draw : Nat) → (site : Nat) → Word

/-- FREE VALUE. Whether `floorF(-0.0)` is `-0.0` (true) or `+0.0` (false): 00_scope.md R14 gives "the largest
integral binary32 value", and the two zeros are equal (notes/assumptions/3.md). -/
opaque Config.floorNegZeroIsNeg : Bool

end Sys2Proof
end

