-- ==== Sys2Proof/Machine/Float.lean ====
section
/-! DEFINITION. IEEE 754 binary32 as CYM-CORE uses it (00_scope.md R7 to R19). Arithmetic is exact on integers and
rounded once, to nearest with ties to even, subnormals kept (R8, R10). Magnitudes are counted in UNITS of
2^-149, the smallest subnormal: every finite binary32 is a whole number of units.

Every operation that can produce a NaN takes the word `nan`, a draw of the free value `Config.freeNaN`: the NaN's
bits are any NaN pattern (93_implementation_defined.md I25; notes/assumptions/1.md). -/

namespace Sys2Proof.Machine

/-! ### Layout (R7, R16) -/

/-- The sign bit, bit 31. -/
def signBit (v : Word) : Bool := v.getLsbD 31
/-- The biased exponent, bits 30:23. -/
def expField (v : Word) : Nat := (v.extractLsb' 23 8).toNat
/-- The fraction, bits 22:0. -/
def fracField (v : Word) : Nat := (v.extractLsb' 0 23).toNat
/-- The magnitude bits 30:0, as a number: it orders the magnitudes. -/
def magBits (v : Word) : Nat := (v.extractLsb' 0 31).toNat

/-- `isFinite(v)`: the exponent field is not `0xFF` (R16). -/
def isFinite (v : Word) : Bool := expField v != 0xFF
/-- A NaN: exponent `0xFF`, fraction nonzero (93_implementation_defined.md I25). -/
def isNaN (v : Word) : Bool := expField v == 0xFF && fracField v != 0
/-- An infinity. -/
def isInf (v : Word) : Bool := expField v == 0xFF && fracField v == 0
/-- `+0.0` or `-0.0`. -/
def isZero (v : Word) : Bool := magBits v == 0

/-- The magnitude bits of infinity. -/
def infMag : Nat := 0x7F800000

/-- A word from its sign and its magnitude bits. -/
def ofMag (neg : Bool) (mag : Nat) : Word := BitVec.ofNat 32 ((if neg then 2 ^ 31 else 0) + mag)

/-- `±0.0`. -/
def zeroF (neg : Bool) : Word := ofMag neg 0
/-- `±∞`. -/
def infF (neg : Bool) : Word := ofMag neg infMag

/-- `-v` (the sign bit flipped). -/
def negF (v : Word) : Word := v ^^^ 0x80000000
/-- `|v|` (the sign bit cleared). -/
def absF (v : Word) : Word := v &&& 0x7FFFFFFF

/-- A NaN made of the free word `nan`: every NaN pattern is its own image, so the result is any NaN
(93_implementation_defined.md I25). -/
def nanOf (nan : Word) : Word := if isNaN nan then nan else nan ||| 0x7FC00000

/-! ### Constants (R19 and the literals of the rules) -/

/-- `PI_F`. -/
def piF : Word := 0x40490FDB
/-- `TWO_PI_F`. -/
def twoPiF : Word := 0x40C90FDB
/-- `K_049`, the binary32 nearest 0.49. -/
def k049 : Word := 0x3EFAE148
/-- `HALF`. -/
def halfF : Word := 0x3F000000
/-- `EIGHTH`. -/
def eighthF : Word := 0x3E000000
/-- `ONE`. -/
def oneF : Word := 0x3F800000
/-- `-1.0`. -/
def negOneF : Word := 0xBF800000
/-- `2.0` (41_filters.md R160). -/
def twoF : Word := 0x40000000
/-- `ZERO`, `+0.0`. -/
def zero : Word := 0x00000000
/-- `4094.0` (43_delay.md R216). -/
def f4094 : Word := 0x457FE000

/-! ### Exact values -/

/-- The magnitude of a finite word, in units of 2^-149. -/
def magUnits (v : Word) : Nat :=
  if expField v = 0 then fracField v else (2 ^ 23 + fracField v) * 2 ^ (expField v - 1)

/-- The exact value of a finite word, in units of 2^-149. -/
def units (v : Word) : Int := if signBit v then -(magUnits v : Int) else magUnits v

/-- How many units make 1.0. -/
def unitsPerOne : Nat := 2 ^ 149

/-! ### Rounding (R8) -/

/-- Whether `num / den` is rounded up from its integer part: to nearest, ties to even. -/
def roundsUp (num den : Nat) : Bool :=
  let r := num % den
  decide (den < 2 * r) || (decide (2 * r = den) && decide (num / den % 2 = 1))

/-- `num / den` as an integer, to nearest, ties to even. -/
def roundNearest (num den : Nat) : Nat := if roundsUp num den then num / den + 1 else num / den

/-- The magnitude bits of the binary32 nearest to `num / den` UNITS, ties to even; infinity on overflow. A value below
2^24 units has an ulp of one unit (subnormals and the first normal binade); above, an ulp of `2^shift` units keeps
a 24-bit significand, whose bits plus `shift * 2^23` are the encoding, a carry into the next binade included. -/
def roundUnits (num den : Nat) : Nat :=
  let q := num / den
  let shift := if q < 2 ^ 24 then 0 else Nat.log2 q - 23
  min (shift * 2 ^ 23 + roundNearest num (den * 2 ^ shift)) infMag

/-! ### The four operations (R8, R9, R10) -/

/-- `a + b`. -/
def fAdd (nan a b : Word) : Word :=
  if isNaN a || isNaN b then nanOf nan
  else if isInf a then (if isInf b && signBit a != signBit b then nanOf nan else a)
  else if isInf b then b
  else
    let s := units a + units b
    if s = 0 then zeroF (signBit a && signBit b) else ofMag (decide (s < 0)) (roundUnits s.natAbs 1)

/-- `a - b`. -/
def fSub (nan a b : Word) : Word := fAdd nan a (negF b)

/-- `a * b`; the product is counted in units of 2^-298. -/
def fMul (nan a b : Word) : Word :=
  let neg := signBit a != signBit b
  if isNaN a || isNaN b then nanOf nan
  else if isInf a || isInf b then (if isZero a || isZero b then nanOf nan else infF neg)
  else ofMag neg (roundUnits (magUnits a * magUnits b) unitsPerOne)

/-- `a / b`. -/
def fDiv (nan a b : Word) : Word :=
  let neg := signBit a != signBit b
  if isNaN a || isNaN b then nanOf nan
  else if isInf a then (if isInf b then nanOf nan else infF neg)
  else if isInf b then zeroF neg
  else if isZero b then (if isZero a then nanOf nan else infF neg)
  else ofMag neg (roundUnits (magUnits a * unitsPerOne) (magUnits b))

/-! ### Comparisons (R11, R12) -/

/-- The signed magnitude bits: ordered as the values are, both zeros at 0. -/
def orderKey (v : Word) : Int := if signBit v then -(magBits v : Int) else magBits v

/-- `a < b`; false with a NaN, and `-0 = +0` (R11). -/
def fLt (a b : Word) : Bool := !isNaN a && !isNaN b && decide (orderKey a < orderKey b)

/-- `a ≤ b` (R11). -/
def fLe (a b : Word) : Bool := !isNaN a && !isNaN b && decide (orderKey a ≤ orderKey b)

/-- `minF(a, b) = (b < a) ? b : a` (R12). -/
def minF (a b : Word) : Word := if fLt b a then b else a

/-- `maxF(a, b) = (b > a) ? b : a` (R12). -/
def maxF (a b : Word) : Word := if fLt a b then b else a

/-! ### Integers (R14, R16, R17) -/

/-- The largest integer at most a finite `v`. -/
def floorInt (v : Word) : Int := units v / (unitsPerOne : Int)

/-- The binary32 of an integer whose magnitude is a binary32 value. -/
def ofInt (n : Int) : Word := ofMag (decide (n < 0)) (roundUnits (n.natAbs * unitsPerOne) 1)

/-- `floorF(x)` (R14). The sign of `floorF(-0.0)` is free (notes/assumptions/3.md); a non-finite `x`, which no rule
passes, is answered with itself. -/
def floorF (x : Word) : Word :=
  if !isFinite x then x
  else if x = 0x80000000 then zeroF Config.floorNegZeroIsNeg
  else ofInt (floorInt x)

/-- `wrap(x)` (R15). -/
def wrap (nan x : Word) : Word :=
  if !isFinite x then zero
  else
    let y := fSub nan x (floorF x)
    if fLe oneF y then zero else y

/-- `toF(n)` for `n < 2^24` (R16). -/
def toF (n : Nat) : Word := ofInt n

/-- `toInt(v)` for an integral finite `v`, `0 ≤ v < 2^32` (R16). -/
def toInt (v : Word) : Nat := (floorInt v).toNat

/-- `roundHalfAway(v)` for a finite `v ≥ 0`: the nearest integer, halves away from zero, exact (R17). -/
def roundHalfAway (v : Word) : Nat := (2 * magUnits v + unitsPerOne) / (2 * unitsPerOne)

end Sys2Proof.Machine
end

