-- ==== Sys2Proof/Machine/Trig.lean ====
section
/-! DEFINITION. `sinF` and `tanhF` (00_scope.md R13) and the reference wavetable contents (44_wavetable.md R241).

The reference pair is the correctly rounded one: the real value is computed in fixed point with 320 fractional bits
and rounded once. Any other pair (`Trig.other k`) is a free value of Config. Both pass through `sinF` and `tanhF`
below, which hold them to R13 (b) to (e); a pair that meets R13 passes unchanged, so these two definitions range
over every conforming pair (notes/assumptions/2.md). -/

namespace Sys2Proof.Machine

/-! ### Fixed point -/

/-- Fractional bits of the fixed-point reference computation. -/
def fixBits : Nat := 320

/-- 1.0 in fixed point. -/
def fixOne : Nat := 2 ^ fixBits

/-- π in fixed point, rounded down: the first 320 fractional bits of π. -/
def fixPi : Nat :=
  0x3243F6A8885A308D313198A2E03707344A4093822299F31D0082EFA98EC4E6C89452821E638D01377

/-- The fixed-point product. -/
def fixMul (a b : Nat) : Nat := a * b / fixOne

/-- `1 - x²/(2k(2k+1)) * (1 - x²/((2k+2)(2k+3)) * …)`, `fuel` terms deep. -/
def sinTail (x2 : Nat) : (fuel k : Nat) → Nat
  | 0, _ => fixOne
  | fuel + 1, k => fixOne - fixMul x2 (sinTail x2 fuel (k + 1)) / (2 * k * (2 * k + 1))

/-- `sin x` for `0 ≤ x ≤ π/2` in fixed point (Taylor's series). -/
def fixSin (x : Nat) : Nat := fixMul x (sinTail (fixMul x x) 45 1)

/-- `1 + y/k * (1 + y/(k+1) * …)`, `fuel` terms deep. -/
def expTail (y : Nat) : (fuel k : Nat) → Nat
  | 0, _ => fixOne
  | fuel + 1, k => fixOne + fixMul y (expTail y fuel (k + 1)) / k

/-- Squaring, `n` times over. -/
def fixSquare : (n x : Nat) → Nat
  | 0, x => x
  | n + 1, x => fixSquare n (fixMul x x)

/-- `e^y` for `0 ≤ y < 32` in fixed point: `(e^(y/64))^64`. -/
def fixExp (y : Nat) : Nat := fixSquare 6 (expTail (y / 64) 60 1)

/-- The magnitude bits of `tanh x`, `x ≥ 0` in fixed point: `(e^2x - 1) / (e^2x + 1)`, rounded once. From 16 on the
nearest binary32 is 1.0. -/
def tanhMag (x : Nat) : Nat :=
  if 16 * fixOne ≤ x then 0x3F800000
  else
    let e := fixExp (2 * x)
    roundUnits ((e - fixOne) * unitsPerOne) (e + fixOne)

/-- A finite word's magnitude in fixed point (exact: 320 ≥ 149). -/
def fixOfMag (x : Word) : Nat := magUnits x * 2 ^ (fixBits - 149)

/-! ### The reference pair -/

/-- The correctly rounded sine of a finite word (R13): reduced to `[0, 2π)`, then to `[0, π]` with a sign, then to
`[0, π/2]`. -/
def sinReference (x : Word) : Word :=
  let r := fixOfMag x % (2 * fixPi)
  let back := decide (fixPi ≤ r)
  let h := if back then r - fixPi else r
  let q := if fixPi < 2 * h then fixPi - h else h
  ofMag (signBit x != back) (roundUnits (fixSin q * unitsPerOne) fixOne)

/-- The correctly rounded hyperbolic tangent of a finite word (R13). -/
def tanhReference (x : Word) : Word := ofMag (signBit x) (tanhMag (fixOfMag x))

/-! ### `sinF` and `tanhF` (R13) -/

/-- The build's sine before R13's bounds are laid on it. -/
def sinRaw : Trig → Word → Word
  | .reference, x => sinReference x
  | .other k, x => Config.sinOther k x

/-- The build's hyperbolic tangent before R13's bounds are laid on it. -/
def tanhRaw : Trig → Word → Word
  | .reference, x => tanhReference x
  | .other k, x => Config.tanhOther k x

/-- `sinF(x)`: a NaN for a NaN or an infinity (R13 (e)), `±0` for `±0` (b), within `[-1, 1]` for a finite `x` (c). -/
def sinF (t : Trig) (nan x : Word) : Word :=
  if !isFinite x then nanOf nan
  else if isZero x then x
  else
    let y := sinRaw t x
    if fLe negOneF y && fLe y oneF then y else zero

/-- `tanhF(x)` of a positive finite `x`: within `[0, 1]` (R13 (c), (d)). -/
def tanhPos (t : Trig) (x : Word) : Word :=
  let y := tanhRaw t x
  if fLe zero y && fLe y oneF then y else zero

/-- `tanhF(x)`: a NaN for a NaN, `±1.0` for `±∞` (R13 (e)), `±0` for `±0` (b), odd (d), within `[-1, 1]` (c). -/
def tanhF (t : Trig) (nan x : Word) : Word :=
  if isNaN x then nanOf nan
  else if isInf x then (if signBit x then negOneF else oneF)
  else if isZero x then x
  else if signBit x then negF (tanhPos t (negF x))
  else tanhPos t x

/-! ### `WT_ROM` (44_wavetable.md R241) -/

/-- `|sin(2πk/N)|` in fixed point, and whether the sine is negative, for `0 ≤ k < N`: the angle is `π j / N` with
`j = 2k`, folded to `j ≤ N/2`, so that every exact zero is an exact 0. -/
def fixSinTurn (k N : Nat) : Bool × Nat :=
  let back := decide (N < 2 * k)
  let j := if back then 2 * N - 2 * k else 2 * k
  let j' := if N < 2 * j then N - j else j
  (back, fixSin (fixPi * j' / N))

/-- `S(t, i)`'s partial sum over `h = 1 … H` in fixed point: `sin(2π h i / N) / h` (R241). -/
def harmonicSum (i N : Nat) : (H : Nat) → Int
  | 0 => 0
  | H + 1 =>
    let (neg, v) := fixSinTurn ((H + 1) * i % N) N
    let term : Int := v / (H + 1)
    harmonicSum i N H + (if neg then -term else term)

/-- `WT_ROM[t][i]` of the reference construction: the binary32 nearest to `tanh(S(t, i))`, with `H(t) = 1 + WT_HSTEP * t`
harmonics (R241). -/
def romReference (b : Build) (t i : Nat) : Word :=
  let s := harmonicSum i b.tableSize (1 + b.wtHstep * t)
  ofMag (decide (s < 0)) (tanhMag s.natAbs)

/-- `WT_ROM[t][i]` of the build, `t < NUM_TABLES`, `i < TABLE_SIZE` (10_state.md R53). -/
def wtRom (b : Build) (t i : Nat) : Word :=
  match b.wtRom with
  | .reference => romReference b t i
  | .words rows => (rows.getD t []).getD i zero

end Sys2Proof.Machine
end

