-- ==== Sys2Proof/Machine/Memory.lean ====
section
/-! DEFINITION. The buffer memories (10_state.md R53, 20_memory.md R80 to R83): word-indexed arrays of 32-bit words,
held as the list of (index, word) pairs that differ from 0.0, indices strictly rising. The hardware has no
byte-addressed memory and no byte order inside a buffer (R82), so a cell is one whole word. An unlisted word reads
+0.0, the reset contents R53 gives every buffer. -/

namespace Sys2Proof.Machine

/-- The words of one buffer that are not +0.0, by index. -/
abbrev Memory := List (Nat × Word)

/-- What an unlisted word reads as: 0.0, every buffer's hardware reset contents (10_state.md R53). -/
def Memory.unlisted : Word := 0x00000000

/-- The canonical form: indices strictly rising, no entry equal to what an unlisted word reads as. -/
abbrev Memory.wf (m : Memory) : Prop := m.Pairwise (fun a b => a.1 < b.1) ∧ ∀ c ∈ m, c.2 ≠ Memory.unlisted

/-- Every listed index is below the buffer's capacity (20_memory.md R81). -/
abbrev Memory.below (m : Memory) (capacity : Nat) : Prop := ∀ c ∈ m, c.1 < capacity

/-- `BufRead(B, i)` (00_scope.md R21). -/
def bufRead : Memory → Nat → Word
  | [], _ => Memory.unlisted
  | (a, v) :: m, i => if a = i then v else bufRead m i

/-- An entry put in front of a list, unless it equals what an unlisted word reads as. -/
def bufCons (i : Nat) (v : Word) (m : Memory) : Memory := if v = Memory.unlisted then m else (i, v) :: m

/-- `BufWrite(B, i, v)` (00_scope.md R21), in canonical form. -/
def bufWrite : Memory → Nat → Word → Memory
  | [], i, v => bufCons i v []
  | (a, x) :: m, i, v =>
    if i < a then bufCons i v ((a, x) :: m)
    else if i = a then bufCons i v m
    else (a, x) :: bufWrite m i v

/-- Words `0 … n-1` set to 0.0 (43_delay.md R212, 46_karplus.md R282, 70_reset_and_hazards.md R393). -/
def bufClear (m : Memory) (n : Nat) : Memory := m.filter (fun c => n ≤ c.1)

/-- The ring read position `(w − d) mod L` (20_memory.md R83), a Euclidean remainder (00_scope.md R18). -/
def ringIndex (w d L : Nat) : Nat := (((w : Int) - (d : Int)) % (L : Int)).toNat

end Sys2Proof.Machine
end

