-- ==== Sys2Proof/Machine/Units.lean ====
section
/-! DEFINITION. The state of each unit: its parameter registers (10_state.md R42 to R52) and its buffers (R53). An F
parameter is its 32-bit pattern; a U parameter that is a size, a cursor or a count is a number (00_scope.md R18). -/

namespace Sys2Proof.Machine

/-- One state-variable filter (10_state.md R43). -/
structure Svf where
  fc    : Word
  q     : Word
  f     : Word
  qc    : Word
  low   : Word
  band  : Word
  high  : Word
  notch : Word
deriving DecidableEq, Repr

/-- One ladder filter (10_state.md R44). -/
structure Lad where
  fb    : Word
  stage : Vector Word 4
  delay : Vector Word 4
deriving DecidableEq, Repr

/-- One comb of the reverb: `LOc`, `CIDXc`, `COMB[c]` (10_state.md R45, R53). -/
structure Comb where
  lo  : Word
  idx : Nat
  buf : Memory
deriving DecidableEq, Repr

/-- One allpass of the reverb: `AIDXa`, `AP[a]` (10_state.md R45, R53). -/
structure Allpass where
  idx : Nat
  buf : Memory
deriving DecidableEq, Repr

/-- The reverb (10_state.md R45; 42_reverb.md R190). CLEN and ALEN are the build's `COMB_LEN` and `AP_LEN`. -/
structure Rev where
  fb    : Word
  room  : Word
  damp  : Word
  wet   : Word
  apfb  : Word
  combs : Vector Comb 8
  aps   : Vector Allpass 4
deriving DecidableEq, Repr

/-- One delay line (10_state.md R46; 43_delay.md R210). -/
structure Dly where
  delay : Nat
  fb    : Word
  mix   : Word
  size  : Nat
  wptr  : Nat
  buf   : Memory
deriving DecidableEq, Repr

/-- One chorus (10_state.md R47; 43_delay.md R215). -/
structure Cho where
  rate  : Word
  depth : Word
  base  : Word
  mix   : Word
  lfoph : Word
  wptr  : Nat
  buf   : Memory
deriving DecidableEq, Repr

/-- One wavetable oscillator (10_state.md R48). -/
structure Wt where
  morph : Word
deriving DecidableEq, Repr

/-- One FM operator (10_state.md R49). -/
structure Fm where
  ratio : Word
  amp   : Word
  fbk   : Word
  phase : Word
  last  : Word
deriving DecidableEq, Repr

/-- One plucked string (10_state.md R50; 46_karplus.md R280). -/
structure Ks where
  fb     : Word
  damp   : Word
  size   : Nat
  cursor : Nat
  last   : Word
  freq   : Word
  buf    : Memory
deriving DecidableEq, Repr

/-- The stages of an envelope (47_envelope_lfo.md R300). -/
inductive Stage where
  | off
  | attack
  | decay
  | sustain
  | release
deriving DecidableEq, Repr

/-- One envelope (10_state.md R51). -/
structure Env where
  att   : Word
  dec   : Word
  sus   : Word
  rel   : Word
  level : Word
  stage : Stage
deriving DecidableEq, Repr

/-- One LFO (10_state.md R52). -/
structure Lfo where
  rate  : Word
  phase : Word
deriving DecidableEq, Repr

/-- STATUS (10_state.md R34): ERR, BUSY (R36), CAUSE and ERROP. The reserved bits read as 0 and hold nothing. -/
structure Status where
  err   : Bool
  busy  : Bool
  cause : BitVec 4
  errop : BitVec 6
deriving DecidableEq, Repr

/-- One access on the host bus (20_memory.md R84, R85): an offset in the 256-byte window and a width. A write
carries one byte for each lane it uses. -/
inductive BusOp where
  | read  (offset : BitVec 8) (bytes : Nat)
  | write (offset : BitVec 8) (lanes : List Byte)
deriving DecidableEq, Repr

/-- What the outside world does to the block, in its order (20_memory.md R89; 70_reset_and_hazards.md R390, R411). -/
inductive HostEvent where
  /-- A host access. `early` marks one that the platform lets overlap the command started before it
  (10_state.md R36, 20_memory.md R88); a host that waits for BUSY = 0 issues none. -/
  | access (op : BusOp) (early : Bool)
  /-- The platform's reset input (70_reset_and_hazards.md R390). -/
  | hardReset
deriving DecidableEq, Repr

end Sys2Proof.Machine
end

