-- ==== Sys2Proof/Machine/SvfDerive.lean ====
section
/-! DEFINITION. `SvfDerive` (41_filters.md R160) on one filter's registers. -/

namespace Sys2Proof.Machine

/-- How many operations of `SvfDerive` draw a NaN: the draws of instance `n` are `6n … 6n+5`. -/
def svfDeriveSites : Nat := 6

/-- The cutoff after the Nyquist guard, over the sample rate: `t = (PI_F * c) / sr` with
`c = minF(FC, K_049 * sr)` (41_filters.md R160). DEDUCED: where `PI_F * c` overflows it is computed as written
(notes/assumptions/16.md). -/
def svfAngle (nan : Nat → Word) (sr fc : Word) : Word :=
  let c := minF fc (fMul (nan 0) k049 sr)
  fDiv (nan 2) (fMul (nan 1) piF c) sr

/-- `SvfDerive`: F = `2.0 * sinF(t)`, QC = `1.0 / maxF(Q, HALF)` (41_filters.md R160). DEDUCED: R160 remarks that F lies in
[0, 2], but 00_scope.md R13 (c) gives `sinF` only the bounds -1 and 1, so under a pair other than the reference F may be as low
as -2.0 (notes/assumptions/16.md). -/
def svfDerive (t : Trig) (nan : Nat → Word) (sr : Word) (u : Svf) : Svf :=
  { u with
    f  := fMul (nan 4) twoF (sinF t (nan 3) (svfAngle nan sr u.fc))
    qc := fDiv (nan 5) oneF (maxF u.q halfF) }

end Sys2Proof.Machine
end

