-- ==== Sys2Proof/Machine/ResetValues.lean ====
section
/-! DEFINITION. The reference configuration (00_scope.md R6) and every unit's hardware reset value (10_state.md R42 to
R53, 70_reset_and_hazards.md R390, R391). -/

namespace Sys2Proof.Machine

/-- The reference instance counts (00_scope.md R6, 92_eei_decisions.md D16). -/
def countsReference : Counts :=
  { svf := 4, lad := 2, dly := 1, cho := 2, wt := 1, fm := 6, ks := 1, env := 4, lfo := 4 }

/-- The reference build (00_scope.md R6). -/
def buildReference : Build :=
  { numTables := 8
    tableSize := 2048
    wtHstep   := 1
    wtRom     := .reference
    dlyMax    := 88200
    ksMax     := 4096
    combLen   := #v[1117, 1193, 1277, 1361, 1423, 1493, 1559, 1619]
    apLen     := #v[557, 443, 347, 227]
    trig      := .reference }

/-- GLB.SR: 44100.0 (10_state.md R42). -/
def srReset : Word := 0x472C4400

/-- SVF: FC 1000.0, Q 1.0, integrators 0.0, before `SvfDerive` (10_state.md R43). -/
def svfReset : Svf :=
  { fc := 0x447A0000, q := 0x3F800000, f := 0, qc := 0, low := 0, band := 0, high := 0, notch := 0 }

/-- SVF after the `SvfDerive` that ends hardware reset (41_filters.md R161, 70_reset_and_hazards.md R390). -/
def svfResetDerived (t : Trig) (nan : Nat → Word) (n : Nat) : Svf :=
  svfDerive t (fun k => nan (svfDeriveSites * n + k)) srReset svfReset

/-- LAD: all 0.0 (10_state.md R44). -/
def ladReset : Lad := { fb := 0, stage := #v[0, 0, 0, 0], delay := #v[0, 0, 0, 0] }

/-- A comb: `LOc` 0.0, `CIDXc` 0, every word 0.0. -/
def combReset : Comb := { lo := 0, idx := 0, buf := [] }

/-- An allpass: `AIDXa` 0, every word 0.0. -/
def apReset : Allpass := { idx := 0, buf := [] }

/-- REV: FB 0.84, ROOM 1.0, DAMP 0.5, WET 1.0, APFB 0.5 (10_state.md R45). -/
def revReset : Rev :=
  { fb := 0x3F570A3D, room := 0x3F800000, damp := 0x3F000000, wet := 0x3F800000, apfb := 0x3F000000
    combs := Vector.replicate 8 combReset
    aps := Vector.replicate 4 apReset }

/-- DLY: DELAY 1, FB 0.0, MIX 0.5, SIZE `DLY_MAX`, WPTR 0 (10_state.md R46). -/
def dlyReset (b : Build) : Dly :=
  { delay := 1, fb := 0, mix := 0x3F000000, size := b.dlyMax, wptr := 0, buf := [] }

/-- CHO: RATE 1.0, DEPTH 0.0, BASE 0.0, MIX 0.5, LFOPH 0.0, WPTR 0 (10_state.md R47). -/
def choReset : Cho :=
  { rate := 0x3F800000, depth := 0, base := 0, mix := 0x3F000000, lfoph := 0, wptr := 0, buf := [] }

/-- WT: MORPH 0.0 (10_state.md R48). -/
def wtReset : Wt := { morph := 0 }

/-- FM: RATIO 1.0, AMP 1.0, FBK 0.0, PHASE 0.0, LAST 0.0 (10_state.md R49). -/
def fmReset : Fm := { ratio := 0x3F800000, amp := 0x3F800000, fbk := 0, phase := 0, last := 0 }

/-- KS: FB 0.99, DAMP 0.5, SIZE `KS_MAX`, CURSOR 0, LAST 0.0, FREQ 0.0 (10_state.md R50). -/
def ksReset (b : Build) : Ks :=
  { fb := 0x3F7D70A4, damp := 0x3F000000, size := b.ksMax, cursor := 0, last := 0, freq := 0, buf := [] }

/-- ENV: ATT, DEC, REL 0.01, SUS 1.0, LEVEL 0.0, STAGE Off (10_state.md R51). -/
def envReset : Env :=
  { att := 0x3C23D70A, dec := 0x3C23D70A, sus := 0x3F800000, rel := 0x3C23D70A, level := 0, stage := .off }

/-- LFO: RATE 1.0, PHASE 0.0 (10_state.md R52). -/
def lfoReset : Lfo := { rate := 0x3F800000, phase := 0 }

/-- STATUS: all fields 0 (10_state.md R34). -/
def statusReset : Status := { err := false, busy := false, cause := 0, errop := 0 }

/-- `X0`–`X15`: 0 (10_state.md R31). -/
def xReset : Vector Word 16 := Vector.replicate 16 0

/-- The CMD readback: 0 (10_state.md R33). -/
def cmdReset : Word := 0x00000000

end Sys2Proof.Machine
end

