-- ==== Sys2Proof/Machine/State.lean ====
section
/-! DEFINITION. The machine's state (10_state.md R30), the reasons a step can stop, and the state after hardware
reset (70_reset_and_hazards.md R390). -/

namespace Sys2Proof.Machine

/-- The whole state of one CYM-CORE (10_state.md R30) and, last, the model's own fields: the host's accesses still
to come, the words its reads returned, and the counter of NaN draws. -/
structure State where
  /-- Data registers `X0`–`X15` (R31). -/
  x      : Vector Word 16
  /-- The CMD readback: the last word that started a command (R33). -/
  cmd    : Word
  /-- STATUS, BUSY included (R34, R36). -/
  status : Status
  /-- GLB.SR (R42). -/
  sr     : Word
  /-- The SVF units; `N_SVF` is the list's length (R41, R43). -/
  svf    : List Svf
  /-- The LAD units; `N_LAD` is the list's length (R44). -/
  lad    : List Lad
  /-- The one reverb (R45). -/
  rev    : Rev
  /-- The DLY units; `N_DLY` is the list's length (R46). -/
  dly    : List Dly
  /-- The CHO units; `N_CHO` is the list's length (R47). -/
  cho    : List Cho
  /-- The WT units; `N_WT` is the list's length (R48). -/
  wt     : List Wt
  /-- The FM units; `N_FM` is the list's length (R49). -/
  fm     : List Fm
  /-- The KS units; `N_KS` is the list's length (R50). -/
  ks     : List Ks
  /-- The ENV units; `N_ENV` is the list's length (R51). -/
  env    : List Env
  /-- The LFO units; `N_LFO` is the list's length (R52). -/
  lfo    : List Lfo
  /-- The configuration of 00_scope.md R6 but for the counts; no step changes it (R30). -/
  build  : Build
  /-- MODEL'S OWN: how many commands have drawn NaN bits (notes/assumptions/1.md). -/
  draws  : Nat
  /-- MODEL'S OWN: the host's accesses still to come, next first (notes/assumptions/6.md). -/
  host   : List HostEvent
  /-- MODEL'S OWN: the words the host's reads returned, newest first (notes/assumptions/6.md). -/
  reads  : List Word
deriving DecidableEq, Repr

/-- Why the machine stops with a fault: never. "No instruction ever stops, halts or waits the datapath. There is no
trap, fault stop or lock-up state" (60_exceptions.md R355): the type has no constructor. -/
inductive Fault where
deriving DecidableEq, Repr

/-- Why the model gives an instruction no meaning. Closed; safe, since a refusal proves nothing. -/
inductive Refusal where
  /-- Raised by an arm of `exec` whose instruction has no meaning yet. No arm is in that state: every command of the
  opcode map has its meaning. Safe. -/
  | notModelled (mnemonic : String)
deriving DecidableEq, Repr

/-- The outcome type of a meaning. -/
abbrev Result := Host.Outcome State Fault Refusal

/-- The state after hardware reset of a block built with counts `c` and constants `b` (70_reset_and_hazards.md R390),
with the model's own fields as given. -/
def State.resetWith (c : Counts) (b : Build) (draws : Nat) (host : List HostEvent) (reads : List Word) : State :=
  { x      := xReset
    cmd    := cmdReset
    status := statusReset
    sr     := srReset
    svf    := (List.range c.svf).map (svfResetDerived b.trig (Config.freeNaN draws))
    lad    := List.replicate c.lad ladReset
    rev    := revReset
    dly    := List.replicate c.dly (dlyReset b)
    cho    := List.replicate c.cho choReset
    wt     := List.replicate c.wt wtReset
    fm     := List.replicate c.fm fmReset
    ks     := List.replicate c.ks (ksReset b)
    env    := List.replicate c.env envReset
    lfo    := List.replicate c.lfo lfoReset
    build  := b
    draws  := draws + 1
    host   := host
    reads  := reads }

/-- The reference block right after hardware reset, the host having issued nothing (70_reset_and_hazards.md R390). -/
def State.reset : State := State.resetWith countsReference buildReference 0 [] []

end Sys2Proof.Machine
end

