-- ==== Sys2Proof/Machine/Flags.lean ====
section
/-! DEFINITION. STATUS: the only flags of CYM-CORE are STATUS.ERR and STATUS.BUSY (10_state.md R55). The errors and
their codes (60_exceptions.md R353), the recording of the first one (R352), the word a read returns and the
write-1-to-clear (10_state.md R34). No arithmetic sets a flag (R55). -/

namespace Sys2Proof.Machine

/-- The errors a command or a host access can record (60_exceptions.md R353). -/
inductive Err where
  /-- A reserved opcode or a nonzero must-be-zero field. -/
  | illegalOp
  /-- INST at or above the instance count. -/
  | badInst
  /-- A PSET/PGET parameter number that names no register. -/
  | badParam
  /-- PSET of a read-only parameter. -/
  | paramRO
  /-- A PSET, PREP or KSF value outside its legal set. -/
  | paramRange
  /-- A sample operand that is an infinity or a NaN. -/
  | nonfinite
  /-- A DLYSZ or KSF length out of range. -/
  | size
  /-- A host access to `Xi` or CMD while BUSY = 1. -/
  | busy
  /-- A host access that is not 32-bit aligned, to an unmapped offset, or a write to ID. -/
  | bus
deriving DecidableEq, Repr

/-- `code(E)`, the CAUSE of an error (60_exceptions.md R353). -/
def Err.code : Err → BitVec 4
  | .illegalOp  => 1
  | .badInst    => 2
  | .badParam   => 3
  | .paramRO    => 4
  | .paramRange => 5
  | .nonfinite  => 6
  | .size       => 7
  | .busy       => 8
  | .bus        => 9

/-- Error recording: the first error since the last clear is kept (60_exceptions.md R352). -/
def recordError (e : Err) (errop : BitVec 6) (st : Status) : Status :=
  if st.err then st else { st with err := true, cause := e.code, errop := errop }

/-- What a read of STATUS returns: ERR bit 0, BUSY bit 1, CAUSE bits 7:4, ERROP bits 13:8, the rest 0
(10_state.md R34). -/
def statusWord (st : Status) : Word :=
  (0 : BitVec 18) ++ st.errop ++ st.cause ++ (0 : BitVec 2) ++ BitVec.ofBool st.busy ++ BitVec.ofBool st.err

/-- A write of `v` to STATUS: `v[0] = 1` clears ERR, CAUSE and ERROP, every other bit is ignored (10_state.md R34). -/
def statusWrite (v : Word) (st : Status) : Status :=
  if v.getLsbD 0 then { st with err := false, cause := 0, errop := 0 } else st

end Sys2Proof.Machine
end

