-- ==== Sys2Proof/Machine/Ops.lean ====
section
/-! DEFINITION. The named operations on the state: reading and writing each register and unit, the NaN draws, raising
an error (60_exceptions.md R351, R352) and clearing it (R359). -/

namespace Sys2Proof.Machine

/-! ### Registers and units -/

/-- `x[r]` (00_scope.md R21). -/
def State.getX (s : State) (r : Reg) : Word := s.x[r]

/-- `x[r] <- v` (00_scope.md R21). -/
def State.putX (s : State) (r : Reg) (v : Word) : State := { s with x := s.x.set r v }

/-- STATUS after a recording or a clear. -/
def State.putStatus (s : State) (st : Status) : State := { s with status := st }

/-- `GLB.SR <- v`. -/
def State.putSr (s : State) (v : Word) : State := { s with sr := v }

/-- Every SVF instance replaced (PREP, RESET). -/
def State.putSvfs (s : State) (us : List Svf) : State := { s with svf := us }

/-- SVF instance `n` replaced. -/
def State.putSvf (s : State) (n : Nat) (u : Svf) : State := { s with svf := s.svf.set n u }

/-- LAD instance `n` replaced. -/
def State.putLad (s : State) (n : Nat) (u : Lad) : State := { s with lad := s.lad.set n u }

/-- The reverb replaced. -/
def State.putRev (s : State) (u : Rev) : State := { s with rev := u }

/-- DLY instance `n` replaced. -/
def State.putDly (s : State) (n : Nat) (u : Dly) : State := { s with dly := s.dly.set n u }

/-- CHO instance `n` replaced. -/
def State.putCho (s : State) (n : Nat) (u : Cho) : State := { s with cho := s.cho.set n u }

/-- WT instance `n` replaced. -/
def State.putWt (s : State) (n : Nat) (u : Wt) : State := { s with wt := s.wt.set n u }

/-- FM instance `n` replaced. -/
def State.putFm (s : State) (n : Nat) (u : Fm) : State := { s with fm := s.fm.set n u }

/-- KS instance `n` replaced. -/
def State.putKs (s : State) (n : Nat) (u : Ks) : State := { s with ks := s.ks.set n u }

/-- ENV instance `n` replaced. -/
def State.putEnv (s : State) (n : Nat) (u : Env) : State := { s with env := s.env.set n u }

/-- LFO instance `n` replaced. -/
def State.putLfo (s : State) (n : Nat) (u : Lfo) : State := { s with lfo := s.lfo.set n u }

/-! ### NaN draws (93_implementation_defined.md I25) -/

/-- The NaN bits of operation `site` of the command that runs next. -/
def State.nan (s : State) (site : Nat) : Word := Config.freeNaN s.draws site

/-- The draws of this command are used up. -/
def State.drawn (s : State) : State := { s with draws := s.draws + 1 }

/-! ### Errors: the block's exception entry and return -/

/-- Record error `e` with ERROP `op` (60_exceptions.md R352). It saves no state, changes no mode and transfers control
nowhere (R358). -/
def State.record (s : State) (e : Err) (op : BitVec 6) : State := s.putStatus (recordError e op s.status)

/-- `raise E`: the command ends, having written nothing, and the error is recorded (00_scope.md R21, 60_exceptions.md
R351, R352). -/
def raise (e : Err) (op : BitVec 6) (s : State) : Result := .next (s.record e op)

/-- The only "return" from an error: the host's write to STATUS (60_exceptions.md R359, 10_state.md R34). -/
def State.writeStatus (s : State) (v : Word) : State := s.putStatus (statusWrite v s.status)

end Sys2Proof.Machine
end

