-- ==== Sys2Proof/Machine/Operands.lean ====
section
/-! DEFINITION. The operand forms of the commands: the instance operand with its check (30_encoding.md R109,
60_exceptions.md R356 step 3), the sample operand `F(x[s])` with its check (R356 step 6), and the count operand
`U(x[s])` (00_scope.md R22). -/

namespace Sys2Proof.Machine

/-- `U(x[s])`: the register as an unsigned 32-bit integer (00_scope.md R22). -/
def State.getU (s : State) (r : Reg) : Nat := (s.getX r).toNat

/-- The instance operand: E_BAD_INST when `n` is at or above the instance count (10_state.md R41). -/
def onInst {α : Type} (op : BitVec 6) (units : List α) (n : Nat) (s : State) (body : α → Result) : Result :=
  match units[n]? with
  | none => raise .badInst op s
  | some u => body u

/-- The sample operand `F(x[r])`: E_NONFINITE for an infinity or a NaN (60_exceptions.md R353, R362). -/
def onSample (op : BitVec 6) (r : Reg) (s : State) (body : Word → Result) : Result :=
  if isFinite (s.getX r) then body (s.getX r) else raise .nonfinite op s

end Sys2Proof.Machine
end

