-- ==== Sys2Proof/Machine/Params.lean ====
section
/-! DEFINITION. The parameter space (20_memory.md R80): the registers of 10_state.md R42 to R52 by unit class `u`,
instance `n` and index `p`, their access, their legal sets, and reading and writing one. -/

namespace Sys2Proof.Machine

/-! ### Legal sets (10_state.md R40; comparisons of 00_scope.md R11) -/

/-- Finite. -/
def finiteSet (v : Word) : Bool := isFinite v
/-- Finite, ≥ 0. -/
def nonnegSet (v : Word) : Bool := isFinite v && fLe zero v
/-- Finite, > 0. -/
def positiveSet (v : Word) : Bool := isFinite v && fLt zero v
/-- 0 ≤ v < 1. -/
def unitOpenSet (v : Word) : Bool := isFinite v && fLe zero v && fLt v oneF
/-- 0 ≤ v ≤ 1. -/
def unitClosedSet (v : Word) : Bool := isFinite v && fLe zero v && fLe v oneF
/-- -1 < v < 1. -/
def gainSet (v : Word) : Bool := isFinite v && fLt negOneF v && fLt v oneF
/-- 0 ≤ v ≤ toF(NUM_TABLES − 1). -/
def morphSet (numTables : Nat) (v : Word) : Bool := isFinite v && fLe zero v && fLe v (toF (numTables - 1))
/-- 1 ≤ U(v) ≤ SIZE. -/
def delaySet (size : Nat) (v : Word) : Bool := decide (1 ≤ v.toNat) && decide (v.toNat ≤ size)

/-- A number as a U parameter's 32-bit pattern. -/
def uWord (n : Nat) : Word := BitVec.ofNat 32 n

/-- The stage codes (10_state.md R51). -/
def Stage.code : Stage → Nat
  | .off => 0
  | .attack => 1
  | .decay => 2
  | .sustain => 3
  | .release => 4

/-! ### Reading: `none` for an index that names no register (10_state.md R54) -/

/-- GLB (R42). -/
def glbGet (s : State) : Nat → Option Word
  | 0 => s.sr
  | 1 => uWord s.build.numTables
  | 2 => uWord s.build.tableSize
  | 3 => uWord Config.choSize
  | 4 => uWord s.build.dlyMax
  | 5 => uWord s.build.ksMax
  | _ => none

/-- SVF (R43). -/
def svfGet (u : Svf) : Nat → Option Word
  | 0 => u.fc
  | 1 => u.q
  | 2 => u.f
  | 3 => u.qc
  | 4 => u.low
  | 5 => u.band
  | 6 => u.high
  | 7 => u.notch
  | _ => none

/-- LAD (R44). -/
def ladGet (u : Lad) : Nat → Option Word
  | 0 => u.fb
  | 1 => u.stage[0]
  | 2 => u.stage[1]
  | 3 => u.stage[2]
  | 4 => u.stage[3]
  | 5 => u.delay[0]
  | 6 => u.delay[1]
  | 7 => u.delay[2]
  | 8 => u.delay[3]
  | _ => none

/-- REV (R45): the five gains, then LO0–7, CIDX0–7, AIDX0–3, CLEN0–7 and ALEN0–3. -/
def revGet (b : Build) (u : Rev) (p : Nat) : Option Word :=
  if p < 5 then [u.fb, u.room, u.damp, u.wet, u.apfb][p]?
  else if p < 13 then u.combs[p - 5]?.map (·.lo)
  else if p < 21 then u.combs[p - 13]?.map (uWord ·.idx)
  else if p < 25 then u.aps[p - 21]?.map (uWord ·.idx)
  else if p < 33 then b.combLen[p - 25]?.map uWord
  else if p < 37 then b.apLen[p - 33]?.map uWord
  else none

/-- DLY (R46). -/
def dlyGet (u : Dly) : Nat → Option Word
  | 0 => uWord u.delay
  | 1 => u.fb
  | 2 => u.mix
  | 3 => uWord u.size
  | 4 => uWord u.wptr
  | _ => none

/-- CHO (R47). -/
def choGet (u : Cho) : Nat → Option Word
  | 0 => u.rate
  | 1 => u.depth
  | 2 => u.base
  | 3 => u.mix
  | 4 => u.lfoph
  | 5 => uWord u.wptr
  | _ => none

/-- WT (R48). -/
def wtGet (u : Wt) : Nat → Option Word
  | 0 => u.morph
  | _ => none

/-- FM (R49). -/
def fmGet (u : Fm) : Nat → Option Word
  | 0 => u.ratio
  | 1 => u.amp
  | 2 => u.fbk
  | 3 => u.phase
  | 4 => u.last
  | _ => none

/-- KS (R50). -/
def ksGet (u : Ks) : Nat → Option Word
  | 0 => u.fb
  | 1 => u.damp
  | 2 => uWord u.size
  | 3 => uWord u.cursor
  | 4 => u.last
  | 5 => u.freq
  | _ => none

/-- ENV (R51). -/
def envGet (u : Env) : Nat → Option Word
  | 0 => u.att
  | 1 => u.dec
  | 2 => u.sus
  | 3 => u.rel
  | 4 => u.level
  | 5 => uWord u.stage.code
  | _ => none

/-- LFO (R52). -/
def lfoGet (u : Lfo) : Nat → Option Word
  | 0 => u.rate
  | 1 => u.phase
  | _ => none

/-- `count(u)`: the instance count of a unit class (10_state.md R41). -/
def State.count (s : State) : Nat → Nat
  | 0 => 1
  | 1 => s.svf.length
  | 2 => s.lad.length
  | 3 => 1
  | 4 => s.dly.length
  | 5 => s.cho.length
  | 6 => s.wt.length
  | 7 => s.fm.length
  | 8 => s.ks.length
  | 9 => s.env.length
  | 10 => s.lfo.length
  | _ => 0

/-- `P(u, n, p)` of a valid instance (00_scope.md R21); `none` when `(u, p)` names no register. -/
def State.getParam (s : State) (u n p : Nat) : Option Word :=
  match u with
  | 0 => glbGet s p
  | 1 => s.svf[n]?.bind (svfGet · p)
  | 2 => s.lad[n]?.bind (ladGet · p)
  | 3 => revGet s.build s.rev p
  | 4 => s.dly[n]?.bind (dlyGet · p)
  | 5 => s.cho[n]?.bind (choGet · p)
  | 6 => s.wt[n]?.bind (wtGet · p)
  | 7 => s.fm[n]?.bind (fmGet · p)
  | 8 => s.ks[n]?.bind (ksGet · p)
  | 9 => s.env[n]?.bind (envGet · p)
  | 10 => s.lfo[n]?.bind (lfoGet · p)
  | _ => none

/-! ### Access (10_state.md R42 to R52, column "access") -/

/-- RW: readable and writable; RO: readable by PGET only (10_state.md R40). -/
inductive Access where
  | rw
  | ro
deriving DecidableEq, Repr

/-- `access(u, p)`: how many leading indices of the class are RW, and how many indices it has; CHO's read-write
parameters are 0–4, FM's 0–3, and so on. `none` when `(u, p)` names no register. -/
def access (u p : Nat) : Option Access :=
  let upTo (rw all : Nat) : Option Access := if p < rw then some .rw else if p < all then some .ro else none
  match u with
  | 0 => upTo 0 6
  | 1 => upTo 2 8
  | 2 => upTo 1 9
  | 3 => upTo 5 37
  | 4 => upTo 3 5
  | 5 => upTo 5 6
  | 6 => upTo 1 1
  | 7 => upTo 4 5
  | 8 => upTo 2 6
  | 9 => upTo 4 6
  | 10 => upTo 2 2
  | _ => none

/-! ### Legal sets of the RW parameters (column "legal on PSET") -/

/-- `legal(u, p, n)` (40_control.md R144). An index that is not RW has no legal value. -/
def State.legal (s : State) (u n p : Nat) (v : Word) : Bool :=
  match u, p with
  | 1, 0 => nonnegSet v
  | 1, 1 => finiteSet v
  | 2, 0 => finiteSet v
  | 3, 0 => unitOpenSet v
  | 3, 1 => unitClosedSet v
  | 3, 2 => unitClosedSet v
  | 3, 3 => unitClosedSet v
  | 3, 4 => gainSet v
  | 4, 0 => s.dly[n]?.any (delaySet ·.size v)
  | 4, 1 => unitOpenSet v
  | 4, 2 => unitClosedSet v
  | 5, 0 => nonnegSet v
  | 5, 1 => nonnegSet v
  | 5, 2 => nonnegSet v
  | 5, 3 => unitClosedSet v
  | 5, 4 => unitOpenSet v
  | 6, 0 => morphSet s.build.numTables v
  | 7, 0 => finiteSet v
  | 7, 1 => finiteSet v
  | 7, 2 => finiteSet v
  | 7, 3 => unitOpenSet v
  | 8, 0 => unitOpenSet v
  | 8, 1 => unitOpenSet v
  | 9, 0 => positiveSet v
  | 9, 1 => positiveSet v
  | 9, 2 => unitClosedSet v
  | 9, 3 => positiveSet v
  | 10, 0 => nonnegSet v
  | 10, 1 => unitOpenSet v
  | _, _ => false

/-! ### Writing an RW parameter -/

/-- SVF FC, Q; `SvfDerive` follows (40_control.md R144, 41_filters.md R161). -/
def svfSet (s : State) (u : Svf) (p : Nat) (v : Word) : Svf :=
  svfDerive s.build.trig s.nan s.sr (match p with | 0 => { u with fc := v } | 1 => { u with q := v } | _ => u)

/-- LAD FB. -/
def ladSet (u : Lad) (p : Nat) (v : Word) : Lad := match p with | 0 => { u with fb := v } | _ => u

/-- REV FB, ROOM, DAMP, WET, APFB. -/
def revSet (u : Rev) (p : Nat) (v : Word) : Rev :=
  match p with
  | 0 => { u with fb := v }
  | 1 => { u with room := v }
  | 2 => { u with damp := v }
  | 3 => { u with wet := v }
  | 4 => { u with apfb := v }
  | _ => u

/-- DLY DELAY, FB, MIX. -/
def dlySet (u : Dly) (p : Nat) (v : Word) : Dly :=
  match p with
  | 0 => { u with delay := v.toNat }
  | 1 => { u with fb := v }
  | 2 => { u with mix := v }
  | _ => u

/-- CHO RATE, DEPTH, BASE, MIX, LFOPH. -/
def choSet (u : Cho) (p : Nat) (v : Word) : Cho :=
  match p with
  | 0 => { u with rate := v }
  | 1 => { u with depth := v }
  | 2 => { u with base := v }
  | 3 => { u with mix := v }
  | 4 => { u with lfoph := v }
  | _ => u

/-- WT MORPH. -/
def wtSet (u : Wt) (p : Nat) (v : Word) : Wt := match p with | 0 => { u with morph := v } | _ => u

/-- FM RATIO, AMP, FBK, PHASE. -/
def fmSet (u : Fm) (p : Nat) (v : Word) : Fm :=
  match p with
  | 0 => { u with ratio := v }
  | 1 => { u with amp := v }
  | 2 => { u with fbk := v }
  | 3 => { u with phase := v }
  | _ => u

/-- KS FB, DAMP. -/
def ksSet (u : Ks) (p : Nat) (v : Word) : Ks :=
  match p with
  | 0 => { u with fb := v }
  | 1 => { u with damp := v }
  | _ => u

/-- ENV ATT, DEC, SUS, REL. -/
def envSet (u : Env) (p : Nat) (v : Word) : Env :=
  match p with
  | 0 => { u with att := v }
  | 1 => { u with dec := v }
  | 2 => { u with sus := v }
  | 3 => { u with rel := v }
  | _ => u

/-- LFO RATE, PHASE. -/
def lfoSet (u : Lfo) (p : Nat) (v : Word) : Lfo :=
  match p with
  | 0 => { u with rate := v }
  | 1 => { u with phase := v }
  | _ => u

/-- `P(u, n, p) <- v`, and `SvfDerive(n)` when the parameter is SVF FC or Q (40_control.md R144). GLB has no RW
parameter. -/
def State.setParam (s : State) (u n p : Nat) (v : Word) : State :=
  match u with
  | 1 => { s with svf := s.svf.modify n (svfSet s · p v), draws := s.draws + 1 }
  | 2 => { s with lad := s.lad.modify n (ladSet · p v) }
  | 3 => s.putRev (revSet s.rev p v)
  | 4 => { s with dly := s.dly.modify n (dlySet · p v) }
  | 5 => { s with cho := s.cho.modify n (choSet · p v) }
  | 6 => { s with wt := s.wt.modify n (wtSet · p v) }
  | 7 => { s with fm := s.fm.modify n (fmSet · p v) }
  | 8 => { s with ks := s.ks.modify n (ksSet · p v) }
  | 9 => { s with env := s.env.modify n (envSet · p v) }
  | 10 => { s with lfo := s.lfo.modify n (lfoSet · p v) }
  | _ => s

end Sys2Proof.Machine
end

