-- ==== Sys2Proof/Machine/Control.lean ====
section
/-! DEFINITION. The control commands NOP, RESET, PREP, PSET and PGET (40_control.md R140 to R145). -/

namespace Sys2Proof.Machine

/-- NOP (40_control.md R140). -/
def execNop (s : State) : Result := .next s

/-! ### RESET (70_reset_and_hazards.md R393) -/

/-- SVF: LOW, BAND, HIGH, NOTCH ← 0.0. -/
def svfClear (u : Svf) : Svf := { u with low := zero, band := zero, high := zero, notch := zero }
/-- LAD: STAGE0–3, DELAY0–3 ← 0.0. -/
def ladClear (u : Lad) : Lad := { u with stage := #v[zero, zero, zero, zero], delay := #v[zero, zero, zero, zero] }
/-- REV: LO0–7 ← 0.0, CIDX0–7 ← 0, AIDX0–3 ← 0, every word of COMB and AP ← 0.0. -/
def revClear (u : Rev) : Rev :=
  { u with
    combs := Vector.replicate 8 { lo := zero, idx := 0, buf := [] }
    aps := Vector.replicate 4 { idx := 0, buf := [] } }
/-- DLY: WPTR ← 0, words 0 … SIZE−1 ← 0.0. -/
def dlyClear (u : Dly) : Dly := { u with wptr := 0, buf := bufClear u.buf u.size }
/-- CHO: WPTR ← 0, LFOPH ← 0.0, every word ← 0.0. -/
def choClear (u : Cho) : Cho := { u with wptr := 0, lfoph := zero, buf := [] }
/-- FM: PHASE, LAST ← 0.0. -/
def fmClear (u : Fm) : Fm := { u with phase := zero, last := zero }
/-- KS: CURSOR ← 0, LAST ← 0.0, words 0 … SIZE−1 ← 0.0. -/
def ksClear (u : Ks) : Ks := { u with cursor := 0, last := zero, buf := bufClear u.buf u.size }
/-- ENV: LEVEL ← 0.0, STAGE ← Off. -/
def envClear (u : Env) : Env := { u with level := zero, stage := .off }
/-- LFO: PHASE ← 0.0. -/
def lfoClear (u : Lfo) : Lfo := { u with phase := zero }

/-- `SoftReset()` (70_reset_and_hazards.md R393). -/
def softReset (s : State) : State :=
  { s with
    svf := s.svf.map svfClear
    lad := s.lad.map ladClear
    rev := revClear s.rev
    dly := s.dly.map dlyClear
    cho := s.cho.map choClear
    fm  := s.fm.map fmClear
    ks  := s.ks.map ksClear
    env := s.env.map envClear
    lfo := s.lfo.map lfoClear }

/-- RESET (40_control.md R141). -/
def execReset (s : State) : Result := .next (softReset s)

/-! ### PREP -/

/-- `for n in 0 .. N_SVF-1: SvfDerive(n)` at rate `sr` (40_control.md R142, 41_filters.md R161). -/
def deriveAll (s : State) (sr : Word) : List Svf :=
  s.svf.mapIdx (fun n u => svfDerive s.build.trig (fun k => s.nan (svfDeriveSites * n + k)) sr u)

/-- PREP (40_control.md R142). -/
def execPrep (s1 : Reg) (s : State) : Result :=
  let v := s.getX s1
  if positiveSet v then .next (((s.putSr v).putSvfs (deriveAll s v)).drawn) else raise .paramRange 0x02 s

/-! ### PSET and PGET -/

/-- PSET (40_control.md R144), its checks in the order of 60_exceptions.md R356. -/
def execPset (n : Nat) (s1 : Reg) (u p : Nat) (s : State) : Result :=
  if 11 ≤ u then raise .badParam 0x03 s
  else if s.count u ≤ n then raise .badInst 0x03 s
  else
    match access u p with
    | none => raise .badParam 0x03 s
    | some .ro => raise .paramRO 0x03 s
    | some .rw =>
      let v := s.getX s1
      if s.legal u n p v then .next (s.setParam u n p v) else raise .paramRange 0x03 s

/-- PGET (40_control.md R145). -/
def execPget (n : Nat) (d : Reg) (u p : Nat) (s : State) : Result :=
  if 11 ≤ u then raise .badParam 0x04 s
  else if s.count u ≤ n then raise .badInst 0x04 s
  else
    match s.getParam u n p with
    | none => raise .badParam 0x04 s
    | some v => .next (s.putX d v)

end Sys2Proof.Machine
end

