-- ==== Sys2Proof/Machine/Delay.lean ====
section
/-! DEFINITION. The delay lines: DLY and DLYSZ (43_delay.md R210 to R212) and the chorus CHO (R215 to R217). -/

namespace Sys2Proof.Machine

/-- `(in * (1.0 - MIX)) + (dl * MIX)` (43_delay.md R211, R216), its four draws from `nan 0` on. DEDUCED: with an infinite `dl` the
products are computed as written, although R211 remarks that MIX = 0 gives the dry input exactly (notes/assumptions/16.md). -/
def dryWet (nan : Nat → Word) (mix inp dl : Word) : Word :=
  fAdd (nan 3) (fMul (nan 1) inp (fSub (nan 0) oneF mix)) (fMul (nan 2) dl mix)

/-- One delay-line step: read before write (43_delay.md R211). DEDUCED: FB = 0 with an infinite `dl` stores a NaN, although R211
remarks that it gives a pure delay (notes/assumptions/16.md). -/
def dlyStep (nan : Nat → Word) (inp : Word) (u : Dly) : Word × Dly :=
  let dl := bufRead u.buf (ringIndex u.wptr u.delay u.size)
  (dryWet (fun k => nan (2 + k)) u.mix inp dl,
   { u with
     buf := bufWrite u.buf u.wptr (fAdd (nan 1) inp (fMul (nan 0) dl u.fb))
     wptr := (u.wptr + 1) % u.size })

/-- DLY (43_delay.md R211). -/
def execDly (n : Nat) (d s1 : Reg) (s : State) : Result :=
  onInst 0x10 s.dly n s fun u =>
    onSample 0x10 s1 s fun inp =>
      let o := dlyStep s.nan inp u
      .next (((s.putDly n o.2).putX d o.1).drawn)

/-- A delay line resized to `m`: SIZE, the cleared words, WPTR and the clamped DELAY (43_delay.md R212). -/
def dlyResize (m : Nat) (u : Dly) : Dly :=
  { u with size := m, buf := bufClear u.buf m, wptr := 0, delay := if m < u.delay then m else u.delay }

/-- DLYSZ (43_delay.md R212). -/
def execDlysz (n : Nat) (s1 : Reg) (s : State) : Result :=
  onInst 0x11 s.dly n s fun u =>
    let m := s.getU s1
    if m < 1 ∨ s.build.dlyMax < m then raise .size 0x11 s else .next (s.putDly n (dlyResize m u))

/-- The chorus's delay in samples, `minF(maxF(BASE + (DEPTH * m), 0.0), 4094.0)` with `m = sinF(TWO_PI_F * LFOPH)`
(43_delay.md R216). -/
def choDelay (t : Trig) (nan : Nat → Word) (u : Cho) : Word :=
  let m := sinF t (nan 1) (fMul (nan 0) twoPiF u.lfoph)
  minF (maxF (fAdd (nan 3) u.base (fMul (nan 2) u.depth m)) zero) f4094

/-- One chorus step at rate `sr`: write first, then two taps, linear interpolation (43_delay.md R216). -/
def choStep (t : Trig) (nan : Nat → Word) (sr inp : Word) (u : Cho) : Word × Cho :=
  let buf := bufWrite u.buf u.wptr inp
  let dd := choDelay t nan u
  let k := toInt (floorF dd)
  let fr := fSub (nan 4) dd (floorF dd)
  let a := bufRead buf (ringIndex u.wptr k Config.choSize)
  let b := bufRead buf (ringIndex u.wptr (k + 1) Config.choSize)
  let dl := fAdd (nan 7) a (fMul (nan 6) fr (fSub (nan 5) b a))
  (dryWet (fun k => nan (11 + k)) u.mix inp dl,
   { u with
     buf := buf
     wptr := (u.wptr + 1) % Config.choSize
     lfoph := wrap (nan 10) (fAdd (nan 9) u.lfoph (fDiv (nan 8) u.rate sr)) })

/-- CHO (43_delay.md R216). -/
def execCho (n : Nat) (d s1 : Reg) (s : State) : Result :=
  onInst 0x12 s.cho n s fun u =>
    onSample 0x12 s1 s fun inp =>
      let o := choStep s.build.trig s.nan s.sr inp u
      .next (((s.putCho n o.2).putX d o.1).drawn)

end Sys2Proof.Machine
end

