-- ==== Sys2Proof/Machine/Filters.lean ====
section
/-! DEFINITION. The filters: SVF.LP, SVF.BP, SVF.HP, SVF.NOTCH (41_filters.md R162 to R167) and LAD (R170). -/

namespace Sys2Proof.Machine

/-- `SvfStep(n, in)`: the Chamberlin recurrence, new low and old band into high, new high into band
(41_filters.md R162). DEDUCED: with F = 0 an infinite BAND gives a NaN, although R163 remarks that LOW and BAND then never
change, and reading a non-finite value out does not clear it, although 60_exceptions.md R362 says it stays until it is read
out (notes/assumptions/16.md). -/
def svfStep (nan : Nat → Word) (inp : Word) (u : Svf) : Svf :=
  let low := fAdd (nan 1) u.low (fMul (nan 0) u.f u.band)
  let high := fSub (nan 4) (fSub (nan 2) inp low) (fMul (nan 3) u.qc u.band)
  let band := fAdd (nan 6) u.band (fMul (nan 5) u.f high)
  let notch := fAdd (nan 7) low high
  { u with low := low, high := high, band := band, notch := notch }

/-- One SVF command: step instance `n` and write the output `out` selects (41_filters.md R163). -/
def svfCommand (out : Svf → Word) (n : Nat) (d s1 : Reg) (s : State) : Result :=
  onInst 0x08 s.svf n s fun u =>
    onSample 0x08 s1 s fun inp =>
      let u' := svfStep s.nan inp u
      .next (((s.putSvf n u').putX d (out u')).drawn)

/-- SVF.LP: output LOW (41_filters.md R163). -/
def execSvfLp (n : Nat) (d s1 : Reg) (s : State) : Result := svfCommand Svf.low n d s1 s

/-- SVF.BP: output BAND (41_filters.md R164). -/
def execSvfBp (n : Nat) (d s1 : Reg) (s : State) : Result := svfCommand Svf.band n d s1 s

/-- SVF.HP: output HIGH (41_filters.md R165). -/
def execSvfHp (n : Nat) (d s1 : Reg) (s : State) : Result := svfCommand Svf.high n d s1 s

/-- SVF.NOTCH: output NOTCH (41_filters.md R167). -/
def execSvfNotch (n : Nat) (d s1 : Reg) (s : State) : Result := svfCommand Svf.notch n d s1 s

/-- One ladder step: `tanhF(in − tanhF(FB · STAGE3))` into four chained first differences (41_filters.md R170). -/
def ladStep (t : Trig) (nan : Nat → Word) (inp : Word) (u : Lad) : Lad :=
  let sigma := tanhF t (nan 1) (fMul (nan 0) u.fb u.stage[3])
  let u0 := tanhF t (nan 3) (fSub (nan 2) inp sigma)
  let s0 := fSub (nan 4) u0 u.delay[0]
  let s1 := fSub (nan 5) s0 u.delay[1]
  let s2 := fSub (nan 6) s1 u.delay[2]
  let s3 := fSub (nan 7) s2 u.delay[3]
  { u with stage := #v[s0, s1, s2, s3], delay := #v[u0, s0, s1, s2] }

/-- LAD (41_filters.md R170). -/
def execLad (n : Nat) (d s1 : Reg) (s : State) : Result :=
  onInst 0x09 s.lad n s fun u =>
    onSample 0x09 s1 s fun inp =>
      let u' := ladStep s.build.trig s.nan inp u
      .next (((s.putLad n u').putX d u'.stage[3]).drawn)

end Sys2Proof.Machine
end

