-- ==== Sys2Proof/Machine/Mix.lean ====
section
/-! DEFINITION. The mixing unit: FADD, FMUL and SCLIP (48_mix.md R331, R332, R334). -/

namespace Sys2Proof.Machine

/-- FADD (48_mix.md R331). -/
def execFadd (d s1 s2 : Reg) (s : State) : Result :=
  onSample 0x28 s1 s fun a => onSample 0x28 s2 s fun b => .next ((s.putX d (fAdd (s.nan 0) a b)).drawn)

/-- FMUL (48_mix.md R332). -/
def execFmul (d s1 s2 : Reg) (s : State) : Result :=
  onSample 0x29 s1 s fun a => onSample 0x29 s2 s fun b => .next ((s.putX d (fMul (s.nan 0) a b)).drawn)

/-- SCLIP (48_mix.md R334). -/
def execSclip (d s1 : Reg) (s : State) : Result :=
  onSample 0x2A s1 s fun a => .next ((s.putX d (tanhF s.build.trig (s.nan 0) a)).drawn)

end Sys2Proof.Machine
end

