-- ==== Sys2Proof/Machine/Modulation.lean ====
section
/-! DEFINITION. The modulation sources: ENV (47_envelope_lfo.md R300 to R303) and LFO (R310, R311). -/

namespace Sys2Proof.Machine

/-- The gate transitions (47_envelope_lfo.md R301). -/
def gateStage : Bool → Stage → Stage
  | true,  .off     => .attack
  | true,  .attack  => .attack
  | true,  .decay   => .decay
  | true,  .sustain => .sustain
  | true,  .release => .attack
  | false, .off     => .off
  | false, .attack  => .release
  | false, .decay   => .release
  | false, .sustain => .release
  | false, .release => .release

/-- `1.0 / (stageTime * sr)`, the product first (47_envelope_lfo.md R303). -/
def rampStep (nan : Nat → Word) (time sr : Word) : Word := fDiv (nan 1) oneF (fMul (nan 0) time sr)

/-- The ramp of one stage: the new stage and level (47_envelope_lfo.md R302). -/
def envRamp (nan : Nat → Word) (sr : Word) (u : Env) : Stage → Stage × Word
  | .off => (.off, zero)
  | .attack =>
    let lv := fAdd (nan 2) u.level (rampStep nan u.att sr)
    if fLe oneF lv then (.decay, oneF) else (.attack, lv)
  | .decay =>
    let lv := fSub (nan 2) u.level (rampStep nan u.dec sr)
    if fLe lv u.sus then (.sustain, u.sus) else (.decay, lv)
  | .sustain => (.sustain, u.sus)
  | .release =>
    let lv := fSub (nan 2) u.level (rampStep nan u.rel sr)
    if fLe lv zero then (.off, zero) else (.release, lv)

/-- One envelope sample (47_envelope_lfo.md R302). -/
def envStep (nan : Nat → Word) (sr : Word) (g : Bool) (u : Env) : Env :=
  let o := envRamp nan sr u (gateStage g u.stage)
  { u with stage := o.1, level := o.2 }

/-- ENV (47_envelope_lfo.md R302). -/
def execEnv (n : Nat) (d : Reg) (g : Bool) (s : State) : Result :=
  onInst 0x20 s.env n s fun u =>
    let u' := envStep s.nan s.sr g u
    .next (((s.putEnv n u').putX d u'.level).drawn)

/-- One LFO sample at rate `sr`, taken before the phase advances (47_envelope_lfo.md R311). -/
def lfoStep (t : Trig) (nan : Nat → Word) (sr : Word) (u : Lfo) : Word × Lfo :=
  (sinF t (nan 1) (fMul (nan 0) twoPiF u.phase),
   { u with phase := wrap (nan 4) (fAdd (nan 3) u.phase (fDiv (nan 2) u.rate sr)) })

/-- LFO (47_envelope_lfo.md R311). -/
def execLfo (n : Nat) (d : Reg) (s : State) : Result :=
  onInst 0x21 s.lfo n s fun u =>
    let o := lfoStep s.build.trig s.nan s.sr u
    .next (((s.putLfo n o.2).putX d o.1).drawn)

end Sys2Proof.Machine
end

