-- ==== Sys2Proof/Machine/Oscillators.lean ====
section
/-! DEFINITION. FM (45_fm.md R261) and the Karplus-Strong string KS, KSF (46_karplus.md R281, R282). -/

namespace Sys2Proof.Machine

/-- One operator sample at rate `sr`: the output, and the state with LAST and the advanced PHASE (45_fm.md R261).
DEDUCED: a product `RATIO * car` that overflows also reaches `wrap` as a non-finite argument, although 00_scope.md R15 remarks
that only `rate / SR` can (notes/assumptions/16.md). -/
def fmStep (t : Trig) (nan : Nat → Word) (sr md car : Word) (u : Fm) : Word × Fm :=
  let a := fAdd (nan 2) (fAdd (nan 0) u.phase md) (fMul (nan 1) u.last u.fbk)
  let out := sinF t (nan 4) (fMul (nan 3) twoPiF a)
  (fMul (nan 9) out u.amp,
   { u with
     last := out
     phase := wrap (nan 8) (fAdd (nan 7) u.phase (fDiv (nan 6) (fMul (nan 5) u.ratio car) sr)) })

/-- FM (45_fm.md R261). -/
def execFm (n : Nat) (d s1 s2 : Reg) (s : State) : Result :=
  onInst 0x18 s.fm n s fun u =>
    onSample 0x18 s1 s fun md =>
      onSample 0x18 s2 s fun car =>
        let o := fmStep s.build.trig s.nan s.sr md car u
        .next (((s.putFm n o.2).putX d o.1).drawn)

/-- One string-loop sample (46_karplus.md R281). DEDUCED: DAMP = 0 with an infinite LAST gives a NaN, although R281 remarks that
it is no averaging (notes/assumptions/16.md). -/
def ksStep (nan : Nat → Word) (ex : Word) (u : Ks) : Word × Ks :=
  let out := bufRead u.buf u.cursor
  let mean := fAdd (nan 3) (fMul (nan 1) out (fSub (nan 0) oneF u.damp)) (fMul (nan 2) u.last u.damp)
  let flt := fMul (nan 4) u.fb mean
  (out,
   { u with
     buf := bufWrite u.buf u.cursor (fAdd (nan 5) ex flt)
     last := out
     cursor := (u.cursor + 1) % u.size })

/-- KS (46_karplus.md R281). -/
def execKs (n : Nat) (d s1 : Reg) (s : State) : Result :=
  onInst 0x1C s.ks n s fun u =>
    onSample 0x1C s1 s fun ex =>
      let o := ksStep s.nan ex u
      .next (((s.putKs n o.2).putX d o.1).drawn)

/-- An accepted frequency `fq` of rounded period `m`: FREQ, and the resize when the size changes (46_karplus.md R282,
R283). -/
def ksRetune (fq : Word) (m : Nat) (u : Ks) : Ks :=
  if m = u.size then { u with freq := fq }
  else { u with freq := fq, size := m, buf := bufClear u.buf m, cursor := 0, last := zero }

/-- KSF (46_karplus.md R282). -/
def execKsf (n : Nat) (s1 : Reg) (s : State) : Result :=
  onInst 0x1D s.ks n s fun u =>
    let fq := s.getX s1
    if !positiveSet fq then raise .paramRange 0x1D s
    else
      let v := fDiv (s.nan 0) s.sr fq
      if !isFinite v then raise .size 0x1D s
      else
        let m := roundHalfAway v
        if m < 1 ∨ s.build.ksMax < m then raise .size 0x1D s else .next (s.putKs n (ksRetune fq m u))

end Sys2Proof.Machine
end

