-- ==== Sys2Proof/Machine/Reverb.lean ====
section
/-! DEFINITION. REV: eight parallel combs into four serial allpasses (42_reverb.md R190 to R193). -/

namespace Sys2Proof.Machine

/-- `y`: the comb's oldest word (42_reverb.md R191). -/
def combTap (u : Comb) : Word := bufRead u.buf u.idx

/-- One comb's writes: `LOc`, the buffer word and `CIDXc` (42_reverb.md R191, R192). DEDUCED: with an infinite `y` or `LOc` the
products are computed as written, a NaN, although R191 remarks that DAMP = 0 makes `LOc = y` and DAMP = 1 freezes `LOc`
(notes/assumptions/16.md). -/
def combStep (nan : Nat → Word) (r : Rev) (len : Nat) (inp : Word) (u : Comb) : Comb :=
  let y := combTap u
  let lo := fAdd (nan 3) (fMul (nan 1) y (fSub (nan 0) oneF r.damp)) (fMul (nan 2) u.lo r.damp)
  { lo := lo
    idx := (u.idx + 1) % len
    buf := bufWrite u.buf u.idx (fAdd (nan 6) inp (fMul (nan 5) (fMul (nan 4) lo r.fb) r.room)) }

/-- `acc`: the raw `y` of the combs summed in ascending `c` from 0.0 (42_reverb.md R192). -/
def combSum (nan : Nat → Word) (r : Rev) : Word :=
  (List.finRange 8).foldl (fun acc (c : Fin 8) => fAdd (nan (8 * c.val + 7)) acc (combTap r.combs[c])) zero

/-- One allpass: the outgoing signal and its writes (42_reverb.md R191, R193). -/
def apStep (nan : Nat → Word) (apfb : Word) (len : Nat) (sig : Word) (u : Allpass) : Word × Allpass :=
  let bo := bufRead u.buf u.idx
  let isum := fAdd (nan 1) sig (fMul (nan 0) bo apfb)
  (fSub (nan 3) bo (fMul (nan 2) isum apfb), { idx := (u.idx + 1) % len, buf := bufWrite u.buf u.idx isum })

/-- One reverb step: the output and the new state (42_reverb.md R191). DEDUCED: `s * WET` is computed as written, so WET = 0
gives a NaN, not the `±0.0` that R191 remarks, once the signal is an infinity or a NaN (notes/assumptions/16.md). -/
def revStep (b : Build) (nan : Nat → Word) (inp : Word) (r : Rev) : Word × Rev :=
  let combs := Vector.ofFn fun c : Fin 8 => combStep (fun k => nan (8 * c.val + k)) r b.combLen[c] inp r.combs[c]
  let sig := fMul (nan 64) (combSum nan r) eighthF
  let (sig0, a0) := apStep (fun k => nan (65 + k)) r.apfb b.apLen[0] sig r.aps[0]
  let (sig1, a1) := apStep (fun k => nan (69 + k)) r.apfb b.apLen[1] sig0 r.aps[1]
  let (sig2, a2) := apStep (fun k => nan (73 + k)) r.apfb b.apLen[2] sig1 r.aps[2]
  let (sig3, a3) := apStep (fun k => nan (77 + k)) r.apfb b.apLen[3] sig2 r.aps[3]
  (fMul (nan 81) sig3 r.wet, { r with combs := combs, aps := #v[a0, a1, a2, a3] })

/-- REV; any instance but 0 is E_BAD_INST (42_reverb.md R191, 30_encoding.md R109). -/
def execRev (n : Nat) (d s1 : Reg) (s : State) : Result :=
  onInst 0x0C [s.rev] n s fun r =>
    onSample 0x0C s1 s fun inp =>
      let o := revStep s.build s.nan inp r
      .next (((s.putRev o.2).putX d o.1).drawn)

end Sys2Proof.Machine
end

