-- ==== Sys2Proof/Machine/Wavetable.lean ====
section
/-! DEFINITION. WT: the wavetable oscillator with table morphing (44_wavetable.md R242 to R244). -/

namespace Sys2Proof.Machine

/-- MorphDecode: tables `A`, `B` and the blend `g` (44_wavetable.md R242). -/
def morphDecode (nan : Word) (numTables : Nat) (m : Word) : Nat × Nat × Word :=
  let A := toInt (floorF m)
  (A, (A + 1) % numTables, fSub nan m (floorF m))

/-- PhaseDecode: samples `i0`, `i1` and the fraction `fr` (44_wavetable.md R243). -/
def phaseDecode (nan : Nat → Word) (tableSize : Nat) (ph : Word) : Nat × Nat × Word :=
  let p := wrap (nan 0) ph
  let xs := fMul (nan 1) p (toF tableSize)
  let i0 := toInt (floorF xs) % tableSize
  (i0, (i0 + 1) % tableSize, fSub (nan 2) xs (floorF xs))

/-- `lo + (k * (hi - lo))` (44_wavetable.md R244). DEDUCED: where `hi - lo` overflows the result is computed as written
(notes/assumptions/16.md). -/
def lerp (nan : Nat → Word) (k lo hi : Word) : Word := fAdd (nan 2) lo (fMul (nan 1) k (fSub (nan 0) hi lo))

/-- One wavetable sample: time axis first, then the blend between the tables (44_wavetable.md R244, R246). -/
def wtSample (b : Build) (nan : Nat → Word) (morph ph : Word) : Word :=
  let (A, B, g) := morphDecode (nan 0) b.numTables morph
  let (i0, i1, fr) := phaseDecode (fun k => nan (1 + k)) b.tableSize ph
  let sA := lerp (fun k => nan (4 + k)) fr (wtRom b A i0) (wtRom b A i1)
  let sB := lerp (fun k => nan (7 + k)) fr (wtRom b B i0) (wtRom b B i1)
  lerp (fun k => nan (10 + k)) g sA sB

/-- WT (44_wavetable.md R244). -/
def execWt (n : Nat) (d s1 : Reg) (s : State) : Result :=
  onInst 0x14 s.wt n s fun u =>
    onSample 0x14 s1 s fun ph =>
      .next ((s.putX d (wtSample s.build s.nan u.morph ph)).drawn)

end Sys2Proof.Machine
end

