-- ==== Sys2Proof/Machine/Dispatch.lean ====
section
/-! DEFINITION. One arm for each command of the opcode map (30_encoding.md R107). -/

namespace Sys2Proof.Machine

def exec (i : Instr) (s : State) : Host.Outcome State Fault Refusal :=
  match i with
  | .nop => Sys2Proof.Machine.execNop s
  | .reset => Sys2Proof.Machine.execReset s
  | .prep s1 => Sys2Proof.Machine.execPrep s1 s
  | .pset n s1 u p => Sys2Proof.Machine.execPset n s1 u p s
  | .pget n d u p => Sys2Proof.Machine.execPget n d u p s
  | .svfLp n d s1 => Sys2Proof.Machine.execSvfLp n d s1 s
  | .svfBp n d s1 => Sys2Proof.Machine.execSvfBp n d s1 s
  | .svfHp n d s1 => Sys2Proof.Machine.execSvfHp n d s1 s
  | .svfNotch n d s1 => Sys2Proof.Machine.execSvfNotch n d s1 s
  | .lad n d s1 => Sys2Proof.Machine.execLad n d s1 s
  | .rev n d s1 => Sys2Proof.Machine.execRev n d s1 s
  | .dly n d s1 => Sys2Proof.Machine.execDly n d s1 s
  | .dlysz n s1 => Sys2Proof.Machine.execDlysz n s1 s
  | .cho n d s1 => Sys2Proof.Machine.execCho n d s1 s
  | .wt n d s1 => Sys2Proof.Machine.execWt n d s1 s
  | .fm n d s1 s2 => Sys2Proof.Machine.execFm n d s1 s2 s
  | .ks n d s1 => Sys2Proof.Machine.execKs n d s1 s
  | .ksf n s1 => Sys2Proof.Machine.execKsf n s1 s
  | .env n d g => Sys2Proof.Machine.execEnv n d g s
  | .lfo n d => Sys2Proof.Machine.execLfo n d s
  | .fadd d s1 s2 => Sys2Proof.Machine.execFadd d s1 s2 s
  | .fmul d s1 s2 => Sys2Proof.Machine.execFmul d s1 s2 s
  | .sclip d s1 => Sys2Proof.Machine.execSclip d s1 s

end Sys2Proof.Machine
end

