-- ==== Sys2Proof/Machine/HostBus.lean ====
section
/-! DEFINITION. The host register window (20_memory.md R84 to R88): what each access reads and writes, and what it records
when it is malformed (R86) or lands while BUSY = 1 (R88). A CMD write that starts a command is Sequencer.lean's. -/

namespace Sys2Proof.Machine

/-- A register of the window (20_memory.md R84). -/
inductive Target where
  | x (i : Reg)
  | cmd
  | status
  | id
  | unmapped
deriving DecidableEq, Repr

/-- What an offset names (20_memory.md R84): a multiple of 4 names a register, anything else names none (R86). -/
def target (offset : BitVec 8) : Target :=
  if offset.extractLsb' 0 2 ≠ 0 then .unmapped
  else if offset.extractLsb' 6 2 = 0 then .x (offset.extractLsb' 2 4).toFin
  else if offset = 0x40 then .cmd
  else if offset = 0x44 then .status
  else if offset = 0x48 then .id
  else .unmapped

/-- The word of a 32-bit write to CMD (20_memory.md R84, R85). -/
def commandOf : BusOp → Option Word
  | .write offset lanes => if target offset = .cmd then wordOfLanes lanes else none
  | .read _ _ => none

/-- An access of a wrong width, alignment or offset, or a write to ID: E_BUS with ERROP 0 (20_memory.md R86). -/
def State.busError (s : State) : State := s.record .bus 0

/-- A read: the word returned and the state after it. It has no side effect but a recorded error (20_memory.md R84, R86,
R87, R88). -/
def hostRead (offset : BitVec 8) (bytes : Nat) (s : State) : Word × State :=
  if bytes ≠ 4 then (0, s.busError)
  else
    match target offset with
    | .x i => if s.status.busy then (0, s.record .busy 0) else (s.getX i, s)
    | .cmd => if s.status.busy then (0, s.record .busy 0) else (s.cmd, s)
    | .status => (statusWord s.status, s)
    | .id => (Config.idWord, s)
    | .unmapped => (0, s.busError)

/-- A write that starts no command. A CMD write while BUSY = 1 records E_BUSY with the ERROP of its word; with BUSY = 0
it starts a command, which Sequencer.lean runs, and this definition leaves the state alone (20_memory.md R84, R86,
R88). -/
def hostWrite (offset : BitVec 8) (lanes : List Byte) (s : State) : State :=
  match wordOfLanes lanes with
  | none => s.busError
  | some v =>
    match target offset with
    | .x i => if s.status.busy then s.record .busy 0 else s.putX i v
    | .cmd => if s.status.busy then s.record .busy (opField v) else s
    | .status => s.writeStatus v
    | .id => s.busError
    | .unmapped => s.busError

/-- One access that starts no command; a read's word goes on the log of returned words. -/
def serve (op : BusOp) (s : State) : State :=
  match op with
  | .read offset bytes => let o := hostRead offset bytes s; { o.2 with reads := o.1 :: o.2.reads }
  | .write offset lanes => hostWrite offset lanes s

/-- Accesses in their order (20_memory.md R89). -/
def serveAll : List BusOp → State → State
  | [], s => s
  | op :: ops, s => serveAll ops (serve op s)

end Sys2Proof.Machine
end

