-- ==== Sys2Proof/Machine/Sequencer.lean ====
section
/-! DEFINITION. The command sequencer (60_exceptions.md R350, R351): one step takes the host's next access. An access that
writes CMD while BUSY = 0 runs its command to completion, with the accesses that overlap it (20_memory.md R88). -/

namespace Sys2Proof.Machine

/-- The state once a CMD write has started: BUSY is 1 and the readback holds the word (60_exceptions.md R350). -/
def startCommand (w : Word) (s : State) : State := { s with cmd := w, status := { s.status with busy := true } }

/-- The state once the command is complete: BUSY is 0 (60_exceptions.md R350). -/
def finishCommand (s : State) : State := { s with status := { s.status with busy := false } }

/-- Apply `f` to a next state. -/
def mapNext (f : State → State) : Result → Result
  | .next s => .next (f s)
  | .fault r => .fault r
  | .refused r => .refused r

/-- Decode the word and run its command; a word that is no command raises E_ILLEGAL_OP (30_encoding.md R106, R108,
60_exceptions.md R350). -/
def execWord (w : Word) (s : State) : Result :=
  match decode w with
  | .ok i => exec i s
  | .error _ => raise .illegalOp (opField w) s

/-- The leading host events that overlap the running command (20_memory.md R88). -/
def overlapping : List HostEvent → List BusOp
  | .access op true :: es => op :: overlapping es
  | _ => []

/-- The host events after those. -/
def afterOverlap : List HostEvent → List HostEvent
  | .access _ true :: es => afterOverlap es
  | es => es

/-- A whole command, one atomic step (60_exceptions.md R350, R351): BUSY rises, the overlapping accesses are served while
it is 1, the command takes effect as a whole, BUSY falls. -/
def runCommand (w : Word) (s : State) : Result :=
  mapNext finishCommand
    (execWord w (serveAll (overlapping s.host) (startCommand w { s with host := afterOverlap s.host })))

/-- Hardware reset from any state: the configuration is kept, every other element of 10_state.md R30 takes its reset value
(70_reset_and_hazards.md R390). -/
def hardReset (s : State) : State :=
  State.resetWith
    { svf := s.svf.length, lad := s.lad.length, dly := s.dly.length, cho := s.cho.length, wt := s.wt.length
      fm := s.fm.length, ks := s.ks.length, env := s.env.length, lfo := s.lfo.length }
    s.build s.draws s.host s.reads

/-- The next host event takes effect; with none left the block is idle and keeps all state (60_exceptions.md R375). -/
def nextEvent (s : State) : Result :=
  match s.host with
  | [] => .next s
  | .hardReset :: es => .next (hardReset { s with host := es })
  | .access op _ :: es =>
    match s.status.busy, commandOf op with
    | false, some w => runCommand w { s with host := es }
    | _, _ => .next (serve op { s with host := es })

/-- The host event that writes the command word `w` to CMD (20_memory.md R84, R85). -/
def commandWrite (w : Word) : HostEvent := .access (.write 0x40 (lanesOfWord w)) false

end Sys2Proof.Machine
end

