-- ==== Sys2Proof/Machine/Step.lean ====
section
/-! DEFINITION. One step of the machine: the host's next access (70_reset_and_hazards.md R415), and where the next
instruction comes from: the word the host writes to CMD (10_state.md R32). -/

namespace Sys2Proof.Machine

/-- One step. -/
def step : State → Host.Outcome State Fault Refusal := nextEvent

/-- `s` with the command word of `nbits` bits of `w` as the host's next access, a 32-bit write to CMD, and the block
idle to take it. -/
def State.withFetchWord (s : State) (nbits w : Nat) : State :=
  { s with
    host := commandWrite (BitVec.ofNat 32 (w % 2 ^ nbits)) :: s.host
    status := { s.status with busy := false } }

end Sys2Proof.Machine
end

