-- ==== Sys2Proof/Safety.lean ====
section
/-! DEFINITION. The terms claims use: safe steps and successful runs (60_exceptions.md R355, 70_reset_and_hazards.md R415),
the parts of a state for frames, one word of buffer memory, the exact value of a binary32, and the invariants of the
machine (legal parameters, sound buffers, a consistent STATUS, envelope levels). -/

namespace Sys2Proof.Machine

/-! ### Runs -/

/-- The step answers a next state. -/
def safeStep (s : State) : Prop := ∃ t, step s = .next t

/-- `t` is the state after the next `k` host events from `s`. -/
def reaches (k : Nat) (s t : State) : Prop := Sys2Proof.core.run k s = .next t

/-- A run succeeded: STATUS.ERR = 0 in its final state (70_reset_and_hazards.md R415). -/
def succeeded (s : State) : Prop := s.status.err = false

/-! ### Frames -/

/-- The parts of a state. -/
inductive Part where
  | x
  | cmd
  | status
  | sr
  | svf
  | lad
  | rev
  | dly
  | cho
  | wt
  | fm
  | ks
  | env
  | lfo
  | build
  | draws
  | host
  | reads
deriving DecidableEq, Repr

/-- Part `p` is the same in `s` and `t`. -/
def Part.same : Part → State → State → Prop
  | .x, s, t => t.x = s.x
  | .cmd, s, t => t.cmd = s.cmd
  | .status, s, t => t.status = s.status
  | .sr, s, t => t.sr = s.sr
  | .svf, s, t => t.svf = s.svf
  | .lad, s, t => t.lad = s.lad
  | .rev, s, t => t.rev = s.rev
  | .dly, s, t => t.dly = s.dly
  | .cho, s, t => t.cho = s.cho
  | .wt, s, t => t.wt = s.wt
  | .fm, s, t => t.fm = s.fm
  | .ks, s, t => t.ks = s.ks
  | .env, s, t => t.env = s.env
  | .lfo, s, t => t.lfo = s.lfo
  | .build, s, t => t.build = s.build
  | .draws, s, t => t.draws = s.draws
  | .host, s, t => t.host = s.host
  | .reads, s, t => t.reads = s.reads

/-- Every part but those listed is the same. -/
def sameBut (parts : List Part) (s t : State) : Prop := ∀ p, p ∉ parts → p.same s t

/-- Every data register but those listed is the same. -/
def sameXBut (regs : List Reg) (s t : State) : Prop := ∀ r, r ∉ regs → t.getX r = s.getX r

/-- Every element but number `n` is the same. -/
def sameListBut {α : Type} (n : Nat) (l l' : List α) : Prop := l'.length = l.length ∧ ∀ m, m ≠ n → l'[m]? = l[m]?

/-! ### Buffer memory (10_state.md R53) -/

/-- The writable buffers. -/
inductive BufId where
  | dly (n : Nat)
  | cho (n : Nat)
  | ks (n : Nat)
  | comb (c : Fin 8)
  | ap (a : Fin 4)
deriving DecidableEq, Repr

/-- One word of a buffer; 0.0 for a buffer that does not exist. -/
def State.word (s : State) (b : BufId) (i : Nat) : Word :=
  match b with
  | .dly n => (s.dly[n]?.map (fun u => bufRead u.buf i)).getD zero
  | .cho n => (s.cho[n]?.map (fun u => bufRead u.buf i)).getD zero
  | .ks n => (s.ks[n]?.map (fun u => bufRead u.buf i)).getD zero
  | .comb c => bufRead s.rev.combs[c].buf i
  | .ap a => bufRead s.rev.aps[a].buf i

/-- Every buffer word but those `stored` names reads as before. -/
def sameWordsBut (stored : BufId → Nat → Prop) (s t : State) : Prop :=
  ∀ b i, ¬ stored b i → t.word b i = s.word b i

/-- No buffer word is stored to. -/
def noStore : BufId → Nat → Prop := fun _ _ => False

/-- What a command leaves alone: every part but `parts`, every data register but `regs`, every buffer word but the
`stored` ones. -/
def frame (parts : List Part) (regs : List Reg) (stored : BufId → Nat → Prop) (s t : State) : Prop :=
  sameBut parts s t ∧ sameXBut regs s t ∧ sameWordsBut stored s t

/-! ### Commands by kind -/

/-- The checks that come before a unit command's effect: E_BAD_INST when its instance `n` is at or above the count, else
E_NONFINITE when one of its sample operands is an infinity or a NaN (60_exceptions.md R356, steps 3 and 6). Either way the
error is recorded with the command's opcode and nothing is written (R351). -/
def refusals (i : Instr) (count n : Nat) (operands : List Reg) (s : State) : Prop :=
  (count ≤ n → exec i s = .next (s.record .badInst i.opcode)) ∧
  (n < count → (∃ r ∈ operands, isFinite (s.getX r) = false) → exec i s = .next (s.record .nonfinite i.opcode))

/-- The part of the state that holds a unit class's parameters (10_state.md R41). -/
def classPart : Nat → List Part
  | 0 => [.sr, .build]
  | 1 => [.svf]
  | 2 => [.lad]
  | 3 => [.rev]
  | 4 => [.dly]
  | 5 => [.cho]
  | 6 => [.wt]
  | 7 => [.fm]
  | 8 => [.ks]
  | 9 => [.env]
  | 10 => [.lfo]
  | _ => []

/-! ### Values -/

/-- The exact value of a finite binary32 (00_scope.md R7). -/
def valueOf (v : Word) : ℚ := (units v : ℚ) / 2 ^ 149

/-- Equal as IEEE values: the same bits, or two zeros (00_scope.md R11). -/
def ieeeEq (a b : Word) : Prop := isNaN a = false ∧ isNaN b = false ∧ orderKey a = orderKey b

/-- `-m ≤ v ≤ m`, as IEEE comparisons. -/
def absAtMost (m v : Word) : Prop := fLe (negF m) v = true ∧ fLe v m = true

/-- `r` is the binary32 nearest to `q`, ties to even (00_scope.md R8). -/
def nearest (q : ℚ) (r : Word) : Prop :=
  ∀ c : Word, isFinite c = true →
    |valueOf r - q| ≤ |valueOf c - q| ∧
    (|valueOf r - q| = |valueOf c - q| → valueOf c ≠ valueOf r → r.getLsbD 0 = false)

/-- From this magnitude on, rounding to nearest gives an infinity: the largest binary32 and half its ulp. -/
def overflowBound : ℚ := 2 ^ 128 - 2 ^ 103

/-! ### The configuration (00_scope.md R6) -/

/-- The constraint column of R6 for the build's constants. -/
abbrev buildSound (b : Build) : Prop :=
  (1 ≤ b.numTables ∧ b.numTables ≤ 256) ∧ (2 ≤ b.tableSize ∧ b.tableSize ≤ 65536) ∧
  (b.wtHstep = 1 ∨ b.wtHstep = 2) ∧
  (1 ≤ b.dlyMax ∧ b.dlyMax ≤ 16777215) ∧ (1 ≤ b.ksMax ∧ b.ksMax ≤ 16777215) ∧
  (∀ n ∈ b.combLen.toList ++ b.apLen.toList, 1 ≤ n ∧ n ≤ 65535) ∧
  (b.combLen.toList ++ b.apLen.toList).Nodup

/-- Every word of `WT_ROM` is finite (00_scope.md R6). -/
def romFinite (b : Build) : Prop :=
  ∀ t i, t < b.numTables → i < b.tableSize → isFinite (wtRom b t i) = true

/-- The constraint column of R6 for the instance counts. -/
abbrev State.countsSound (s : State) : Prop :=
  (1 ≤ s.svf.length ∧ s.svf.length ≤ 16) ∧ (1 ≤ s.lad.length ∧ s.lad.length ≤ 16) ∧
  (1 ≤ s.dly.length ∧ s.dly.length ≤ 16) ∧ (1 ≤ s.cho.length ∧ s.cho.length ≤ 16) ∧
  (1 ≤ s.wt.length ∧ s.wt.length ≤ 16) ∧ (2 ≤ s.fm.length ∧ s.fm.length ≤ 16) ∧
  (1 ≤ s.ks.length ∧ s.ks.length ≤ 16) ∧ (1 ≤ s.env.length ∧ s.env.length ≤ 16) ∧
  (1 ≤ s.lfo.length ∧ s.lfo.length ≤ 16)

/-! ### Sound buffers: sizes, cursors and canonical memories (20_memory.md R81, 10_state.md R46 to R50) -/

/-- A buffer in canonical form, within its capacity. -/
abbrev Memory.sound (m : Memory) (capacity : Nat) : Prop := m.wf ∧ m.below capacity

/-- 1 ≤ DELAY ≤ SIZE ≤ `DLY_MAX`, WPTR < SIZE (43_delay.md R210). -/
abbrev Dly.sound (b : Build) (u : Dly) : Prop :=
  1 ≤ u.delay ∧ u.delay ≤ u.size ∧ u.size ≤ b.dlyMax ∧ u.wptr < u.size ∧ u.buf.sound b.dlyMax

/-- WPTR in [0, 4096) (43_delay.md R215). -/
abbrev Cho.sound (u : Cho) : Prop := u.wptr < Config.choSize ∧ u.buf.sound Config.choSize

/-- 1 ≤ SIZE ≤ `KS_MAX`, CURSOR < SIZE (46_karplus.md R280). -/
abbrev Ks.sound (b : Build) (u : Ks) : Prop :=
  1 ≤ u.size ∧ u.size ≤ b.ksMax ∧ u.cursor < u.size ∧ u.buf.sound b.ksMax

/-- Every index below its buffer's length (42_reverb.md R190). -/
abbrev Rev.sound (b : Build) (u : Rev) : Prop :=
  (∀ c : Fin 8, u.combs[c].idx < b.combLen[c] ∧ u.combs[c].buf.sound b.combLen[c]) ∧
  (∀ a : Fin 4, u.aps[a].idx < b.apLen[a] ∧ u.aps[a].buf.sound b.apLen[a])

/-- The buffers of the whole state. -/
abbrev State.buffersSound (s : State) : Prop :=
  buildSound s.build ∧ s.rev.sound s.build ∧ (∀ u ∈ s.dly, u.sound s.build) ∧ (∀ u ∈ s.cho, u.sound) ∧
  (∀ u ∈ s.ks, u.sound s.build)

/-! ### Legal parameters (10_state.md R40: "no RW parameter can therefore hold an illegal value") -/

/-- Every RW parameter of every unit is in its legal set, and SR is finite and positive (10_state.md R42 to R52). -/
def State.paramsLegal (s : State) : Prop :=
  positiveSet s.sr = true ∧
  (∀ u n p v, access u p = some .rw → s.getParam u n p = some v → s.legal u n p v = true)

/-! ### STATUS (10_state.md R34, 60_exceptions.md R353) -/

/-- CAUSE and ERROP are 0 when ERR = 0, CAUSE is a recorded code when ERR = 1, and no command is left running. -/
abbrev State.statusConsistent (s : State) : Prop :=
  s.status.busy = false ∧
  (s.status.err = false → s.status.cause = 0 ∧ s.status.errop = 0) ∧
  (s.status.err = true → ∃ e : Err, s.status.cause = e.code)

/-! ### Envelope levels (47_envelope_lfo.md R302) -/

/-- LEVEL is in [0, 1]. -/
abbrev State.levelsInUnit (s : State) : Prop := ∀ u ∈ s.env, unitClosedSet u.level = true

/-! ### Ladder bounds (41_filters.md R170) -/

/-- `2^i` for the ladder's stages. -/
def ladBound : Fin 5 → Word
  | 0 => 0x3F800000
  | 1 => 0x40000000
  | 2 => 0x40800000
  | 3 => 0x41000000
  | 4 => 0x41800000

/-- The word left in DELAYi is at most `2^i` in magnitude, STAGEi at most `2^(i+1)`. -/
def Lad.bounded (u : Lad) : Prop :=
  (∀ i : Fin 4, absAtMost (ladBound i.castSucc) u.delay[i]) ∧
  (∀ i : Fin 4, absAtMost (ladBound i.succ) u.stage[i])

/-! ### What RESET keeps and forgets (70_reset_and_hazards.md R393, R395) -/

/-- The states agree on everything RESET keeps. -/
def keptEqual (s t : State) : Prop :=
  s.x = t.x ∧ s.cmd = t.cmd ∧ s.status = t.status ∧ s.sr = t.sr ∧ s.build = t.build ∧ s.draws = t.draws ∧
  s.host = t.host ∧ s.reads = t.reads ∧ s.wt = t.wt ∧
  s.svf.map (fun u => (u.fc, u.q, u.f, u.qc)) = t.svf.map (fun u => (u.fc, u.q, u.f, u.qc)) ∧
  s.lad.map (·.fb) = t.lad.map (·.fb) ∧
  (s.rev.fb, s.rev.room, s.rev.damp, s.rev.wet, s.rev.apfb) =
    (t.rev.fb, t.rev.room, t.rev.damp, t.rev.wet, t.rev.apfb) ∧
  s.dly.map (fun u => (u.delay, u.fb, u.mix, u.size)) = t.dly.map (fun u => (u.delay, u.fb, u.mix, u.size)) ∧
  s.cho.map (fun u => (u.rate, u.depth, u.base, u.mix)) = t.cho.map (fun u => (u.rate, u.depth, u.base, u.mix)) ∧
  s.fm.map (fun u => (u.ratio, u.amp, u.fbk)) = t.fm.map (fun u => (u.ratio, u.amp, u.fbk)) ∧
  s.ks.map (fun u => (u.fb, u.damp, u.size, u.freq)) = t.ks.map (fun u => (u.fb, u.damp, u.size, u.freq)) ∧
  s.env.map (fun u => (u.att, u.dec, u.sus, u.rel)) = t.env.map (fun u => (u.att, u.dec, u.sus, u.rel)) ∧
  s.lfo.map (·.rate) = t.lfo.map (·.rate)

/-- The states are the same but for the buffer words of DLY and KS at and above SIZE, which no rule reads
(10_state.md R53). -/
def agree (s t : State) : Prop :=
  { s with dly := [], ks := [] } = { t with dly := [], ks := [] } ∧
  s.dly.map (fun u : Dly => { u with buf := [] }) = t.dly.map (fun u : Dly => { u with buf := [] }) ∧
  s.ks.map (fun u : Ks => { u with buf := [] }) = t.ks.map (fun u : Ks => { u with buf := [] }) ∧
  (∀ (n : Nat) (u v : Dly) (i : Nat), s.dly[n]? = some u → t.dly[n]? = some v → i < u.size → bufRead u.buf i = bufRead v.buf i) ∧
  (∀ (n : Nat) (u v : Ks) (i : Nat), s.ks[n]? = some u → t.ks[n]? = some v → i < u.size → bufRead u.buf i = bufRead v.buf i)

end Sys2Proof.Machine
end

