-- ==== Sys2Proof/Certificates/Slice0/Obligations.lean ====
section
/-! DEFINITION. The statements for the provers, in the order of OBLIGATIONS.json. Where a statement names `s.nan k`, the
bits of a NaN that operation `k` of the command produces, it holds for every value of that free value
(93_implementation_defined.md I25).

Constants stand as the words 00_scope.md R19 gives: `PI_F` 0x40490FDB, `TWO_PI_F` 0x40C90FDB, `K_049` 0x3EFAE148, `HALF`
0x3F000000, `EIGHTH` 0x3E000000, `ONE` 0x3F800000, `ZERO` 0x00000000; 2.0 is 0x40000000 and 4094.0 is 0x457FE000. -/

open Sys2Proof Sys2Proof.Machine

/-! ### Encoding (30_encoding.md) -/

/-- Decoding the word of a well-formed instruction gives the instruction back, every operand at every value its field
admits. -/
def Obligations.DecodeAfterEncode : Prop := ∀ i : Instr, i.wellFormed = true → decode (encode i) = .ok i

/-- A decoded instruction is well-formed, and its word is the one decoded: each instruction has one word. -/
def Obligations.EncodeAfterDecode : Prop :=
  ∀ (w : Word) (i : Instr), decode w = .ok i → i.wellFormed = true ∧ encode i = w

/-- R107: a word decodes to the mnemonic of a row of the opcode map exactly when it satisfies the row's match under the row's
mask; a word that satisfies no row is rejected. -/
def Obligations.DecodeFollowsOpcodeMap : Prop :=
  ∀ w : Word,
    (∀ name m k, (name, m, k) ∈ opcodeMap → (w &&& k = m ↔ ∃ i, decode w = .ok i ∧ i.mnemonic = name)) ∧
    ((∀ row ∈ opcodeMap, w &&& row.2.2 ≠ row.2.1) → ∃ r, decode w = .error r)

/-- Words written out from R101 and R107 (the vectors V-ENC of 95_test_vectors.md). -/
def Obligations.SpecWordsDecode : Prop :=
  decode 0x00000000 = .ok .nop ∧ decode 0x08004000 = .ok (.prep 1) ∧ decode 0x0C0040C2 = .ok (.pset 0 1 3 2) ∧
  decode 0x10080245 = .ok (.pget 0 2 9 5) ∧ decode 0x20084003 = .ok (.svfNotch 0 2 1) ∧
  decode 0x80140001 = .ok (.env 0 5 true) ∧ decode 0xA00C4800 = .ok (.fadd 3 1 2) ∧
  decode 0x74404000 = .ok (.ksf 1 1) ∧ decode 0xFFFFFFFF = .error .reservedOpcode ∧
  decode 0x20084004 = .error .mustBeZero

/-! ### Steps and the host window (20_memory.md, 60_exceptions.md) -/

/-- R350: with BUSY = 0, the host's write of a word that decodes to `i`, nothing overlapping it, sets BUSY to 1, records the
word as the CMD readback, runs the command, and sets BUSY to 0: one step. A CMD write when BUSY = 1 starts nothing. -/
def Obligations.StepRunsDecodedCommand : Prop :=
  ∀ (s : State) (w : Word) (early : Bool) (es : List HostEvent),
    s.host = .access (.write 0x40 (lanesOfWord w)) early :: es →
    (∀ (i : Instr) (t : State), overlapping es = [] → s.status.busy = false → decode w = .ok i →
      exec i { s with host := es, cmd := w, status := { s.status with busy := true } } = .next t →
      step s = .next { t with status := { t.status with busy := false } }) ∧
    (s.status.busy = true → step s = .next ({ s with host := es }.record .busy (w.extractLsb' 26 6)))

/-- R36, R88: accesses that the platform lets overlap the command are served, in their order, while BUSY = 1 and before the
command's own effects become visible; the command then takes effect as a whole and BUSY falls. That they come BEFORE the
command's effects is the model's reading (notes/assumptions/7.md). -/
def Obligations.OverlappedAccessesServedWhileBusy : Prop :=
  ∀ (s t : State) (w : Word) (i : Instr) (early : Bool) (ops : List BusOp) (es : List HostEvent),
    s.host = .access (.write 0x40 (lanesOfWord w)) early :: (ops.map (fun o => .access o true) ++ es) →
    overlapping es = [] → s.status.busy = false → decode w = .ok i →
    exec i (serveAll ops { s with host := es, cmd := w, status := { s.status with busy := true } }) = .next t →
    step s = .next { t with status := { t.status with busy := false } } ∧
    sameBut [.status, .reads] { s with host := es, cmd := w }
      (serveAll ops { s with host := es, cmd := w, status := { s.status with busy := true } })

/-- R108: a word that satisfies no row of the opcode map (a reserved opcode, a nonzero must-be-zero field) never executes: it
is recorded as the readback and E_ILLEGAL_OP with its opcode as the error, unless an error is already recorded; nothing else
changes. The all-zero word is NOP, the all-ones word is in no row. -/
def Obligations.IllegalWordRaisesIllegalOp : Prop :=
  (∀ (s : State) (w : Word) (early : Bool) (es : List HostEvent),
    s.host = .access (.write 0x40 (lanesOfWord w)) early :: es → overlapping es = [] → s.status.busy = false →
    (∀ row ∈ opcodeMap, w &&& row.2.2 ≠ row.2.1) →
    step s = .next { s with
      host := es
      cmd := w
      status := if s.status.err then s.status
                else { err := true, busy := false, cause := 1, errop := w.extractLsb' 26 6 } }) ∧
  decode 0x00000000 = .ok .nop ∧ ∀ row ∈ opcodeMap, (0xFFFFFFFF : Word) &&& row.2.2 ≠ row.2.1

/-- R88: while BUSY = 1 an access to `Xi` or to CMD has no effect but E_BUSY, with bits 31:26 of the written word as ERROP for
a CMD write and 0 otherwise, and a read returns 0; STATUS and ID behave as ever. -/
def Obligations.BusyAccessRefused : Prop :=
  ∀ (s : State) (v : Word), s.status.busy = true →
    (∀ i : Fin 16,
      serve (.read (BitVec.ofNat 8 (4 * i.val)) 4) s = { s.record .busy 0 with reads := 0 :: s.reads } ∧
      serve (.write (BitVec.ofNat 8 (4 * i.val)) (lanesOfWord v)) s = s.record .busy 0) ∧
    serve (.read 0x40 4) s = { s.record .busy 0 with reads := 0 :: s.reads } ∧
    serve (.write 0x40 (lanesOfWord v)) s = s.record .busy (v.extractLsb' 26 6) ∧
    serve (.read 0x44 4) s = { s with reads := statusWord s.status :: s.reads } ∧
    serve (.write 0x44 (lanesOfWord v)) s = { s with status := statusWrite v s.status } ∧
    serve (.read 0x48 4) s = { s with reads := 0x43594D01 :: s.reads } ∧
    serve (.write 0x48 (lanesOfWord v)) s = s.record .bus 0

/-- R84, R35: the window map with BUSY = 0. A read returns `Xi`, the CMD readback, STATUS or ID; a write stores `Xi`, gives the
word of a command to CMD, or goes to STATUS; a write to ID is ignored and records E_BUS, and so is any access to an unmapped
offset, a read returning 0. Byte lane `k` carries bits `8k+7 : 8k` of the word (R85). -/
def Obligations.WindowMap : Prop :=
  ∀ (s : State) (b0 b1 b2 b3 : Byte), s.status.busy = false →
    let v : Word := b3 ++ b2 ++ b1 ++ b0
    let lanes := [b0, b1, b2, b3]
    lanesOfWord v = lanes ∧
    (∀ i : Fin 16,
      serve (.read (BitVec.ofNat 8 (4 * i.val)) 4) s = { s with reads := s.getX i :: s.reads } ∧
      serve (.write (BitVec.ofNat 8 (4 * i.val)) lanes) s = s.putX i v) ∧
    serve (.read 0x40 4) s = { s with reads := s.cmd :: s.reads } ∧
    commandOf (.write 0x40 lanes) = some v ∧
    serve (.read 0x44 4) s = { s with reads := statusWord s.status :: s.reads } ∧
    serve (.write 0x44 lanes) s = { s with status := statusWrite v s.status } ∧
    serve (.read 0x48 4) s = { s with reads := 0x43594D01 :: s.reads } ∧
    serve (.write 0x48 lanes) s = s.record .bus 0 ∧
    ∀ o : BitVec 8, 0x4C ≤ o.toNat →
      serve (.read o 4) s = { s.record .bus 0 with reads := 0 :: s.reads } ∧
      serve (.write o lanes) s = s.record .bus 0

/-- R86: an access that is not 32 bits at a multiple of 4, or that targets an unmapped offset, or that writes ID, has no effect
on any register but the E_BUS it records with ERROP = 0; a read returns 0. (BUSY = 0; for BUSY = 1 see
`MalformedAccessWhileBusy`.) -/
def Obligations.MalformedAccessIsBusError : Prop :=
  ∀ (s : State) (o : BitVec 8) (lanes : List Byte) (bytes : Nat), s.status.busy = false →
    (bytes ≠ 4 ∨ o.toNat % 4 ≠ 0 ∨ 0x4C ≤ o.toNat →
      serve (.read o bytes) s = { s.record .bus 0 with reads := 0 :: s.reads }) ∧
    (lanes.length ≠ 4 ∨ o.toNat % 4 ≠ 0 ∨ 0x48 ≤ o.toNat → serve (.write o lanes) s = s.record .bus 0)

/-- The model's reading of R86 beside R88 (notes/assumptions/8.md): while BUSY = 1 a malformed access records E_BUS, not
E_BUSY. -/
def Obligations.MalformedAccessWhileBusy : Prop :=
  ∀ (s : State) (o : BitVec 8) (lanes : List Byte) (bytes : Nat), s.status.busy = true →
    (bytes ≠ 4 ∨ o.toNat % 4 ≠ 0 ∨ 0x4C ≤ o.toNat →
      serve (.read o bytes) s = { s.record .bus 0 with reads := 0 :: s.reads }) ∧
    (lanes.length ≠ 4 ∨ o.toNat % 4 ≠ 0 ∨ 0x48 ≤ o.toNat → serve (.write o lanes) s = s.record .bus 0)

/-- R89: an access that starts no command takes effect alone, in the host's order. The platform's reset input is taken off
the queue in the same way, the host's remaining accesses and the words already read being kept: the model's reading
(notes/assumptions/12.md). -/
def Obligations.StepServesAccess : Prop :=
  (∀ (s : State) (op : BusOp) (early : Bool) (es : List HostEvent),
    s.host = .access op early :: es → commandOf op = none ∨ s.status.busy = true →
    step s = .next (serve op { s with host := es })) ∧
  ∀ (s : State) (es : List HostEvent), s.host = .hardReset :: es →
    ∃ t, step s = .next t ∧ t.host = es ∧ t.reads = s.reads

/-- R34: the fields of the STATUS word, its reserved bits 0, and the write-1-to-clear of ERR. -/
def Obligations.StatusFields : Prop :=
  ∀ (st : Status) (v : Word),
    (statusWord st).getLsbD 0 = st.err ∧ (statusWord st).getLsbD 1 = st.busy ∧
    (statusWord st).extractLsb' 2 2 = 0 ∧ (statusWord st).extractLsb' 4 4 = st.cause ∧
    (statusWord st).extractLsb' 8 6 = st.errop ∧ (statusWord st).extractLsb' 14 18 = 0 ∧
    (v.getLsbD 0 = true → statusWrite v st = { st with err := false, cause := 0, errop := 0 }) ∧
    (v.getLsbD 0 = false → statusWrite v st = st)

/-- R352, R353: the first error since the last clear is kept, under its cause code; recording touches nothing but STATUS. -/
def Obligations.FirstErrorKept : Prop :=
  ∀ (s : State) (e : Err) (op : BitVec 6),
    sameBut [.status] s (s.record e op) ∧
    (s.status.err = false →
      (s.record e op).status = { err := true, busy := s.status.busy, cause := e.code, errop := op }) ∧
    (s.status.err = true → (s.record e op).status = s.status) ∧
    Err.illegalOp.code = 1 ∧ Err.badInst.code = 2 ∧ Err.badParam.code = 3 ∧ Err.paramRO.code = 4 ∧
    Err.paramRange.code = 5 ∧ Err.nonfinite.code = 6 ∧ Err.size.code = 7 ∧ Err.busy.code = 8 ∧ Err.bus.code = 9

/-- R351, R355: no command stops the datapath; each either completes and leaves STATUS alone, or raises an error, which is
recorded with its opcode, and writes nothing. -/
def Obligations.CommandsCompleteOrWriteNothing : Prop :=
  ∀ (i : Instr) (s : State), ∃ t, exec i s = .next t ∧ (t.status = s.status ∨ ∃ e, t = s.record e i.opcode)

/-- R355, R375: every step answers a next state, and with no access pending the block keeps all state. -/
def Obligations.EveryStepCompletes : Prop := ∀ s : State, safeStep s ∧ (s.host = [] → step s = .next s)

/-- R30, R412: no step changes the configuration. -/
def Obligations.StepKeepsConfiguration : Prop :=
  ∀ s t : State, step s = .next t →
    t.build = s.build ∧ t.svf.length = s.svf.length ∧ t.lad.length = s.lad.length ∧ t.dly.length = s.dly.length ∧
    t.cho.length = s.cho.length ∧ t.wt.length = s.wt.length ∧ t.fm.length = s.fm.length ∧
    t.ks.length = s.ks.length ∧ t.env.length = s.env.length ∧ t.lfo.length = s.lfo.length

/-! ### Reset (70_reset_and_hazards.md) -/

/-- R390: the reset input puts every state element at its hardware reset value, from any state, and keeps the configuration;
`SvfDerive` then gives F and QC the coefficients of FC = 1000, Q = 1 at 44100 Hz. -/
def Obligations.HardwareResetFromAnyState : Prop :=
  ∀ (s : State) (es : List HostEvent), s.host = .hardReset :: es →
    ∃ t, step s = .next t ∧
      (∀ r : Reg, t.getX r = 0) ∧ t.cmd = 0 ∧ statusWord t.status = 0 ∧ t.sr = 0x472C4400 ∧
      (∀ u ∈ t.svf, u.fc = 0x447A0000 ∧ u.q = 0x3F800000 ∧
        u.low = 0 ∧ u.band = 0 ∧ u.high = 0 ∧ u.notch = 0 ∧ u.qc = 0x3F800000 ∧
        ∃ q : Nat → Word, u.f = fMul (q 1) 0x40000000 (sinF s.build.trig (q 0) 0x3D91E531)) ∧
      (∀ u ∈ t.lad, u.fb = 0 ∧ u.stage = #v[0, 0, 0, 0] ∧ u.delay = #v[0, 0, 0, 0]) ∧
      (t.rev.fb = 0x3F570A3D ∧ t.rev.room = 0x3F800000 ∧ t.rev.damp = 0x3F000000 ∧ t.rev.wet = 0x3F800000 ∧
        t.rev.apfb = 0x3F000000 ∧ (∀ c : Fin 8, t.rev.combs[c].lo = 0 ∧ t.rev.combs[c].idx = 0) ∧
        ∀ a : Fin 4, t.rev.aps[a].idx = 0) ∧
      (∀ u ∈ t.dly, u.delay = 1 ∧ u.fb = 0 ∧ u.mix = 0x3F000000 ∧ u.size = s.build.dlyMax ∧ u.wptr = 0) ∧
      (∀ u ∈ t.cho, u.rate = 0x3F800000 ∧ u.depth = 0 ∧ u.base = 0 ∧ u.mix = 0x3F000000 ∧ u.lfoph = 0 ∧ u.wptr = 0) ∧
      (∀ u ∈ t.wt, u.morph = 0) ∧
      (∀ u ∈ t.fm, u.ratio = 0x3F800000 ∧ u.amp = 0x3F800000 ∧ u.fbk = 0 ∧ u.phase = 0 ∧ u.last = 0) ∧
      (∀ u ∈ t.ks, u.fb = 0x3F7D70A4 ∧ u.damp = 0x3F000000 ∧ u.size = s.build.ksMax ∧ u.cursor = 0 ∧ u.last = 0 ∧
        u.freq = 0) ∧
      (∀ u ∈ t.env, u.att = 0x3C23D70A ∧ u.dec = 0x3C23D70A ∧ u.sus = 0x3F800000 ∧ u.rel = 0x3C23D70A ∧ u.level = 0 ∧
        u.stage = .off) ∧
      (∀ u ∈ t.lfo, u.rate = 0x3F800000 ∧ u.phase = 0) ∧
      (∀ b i, t.word b i = 0) ∧
      t.build = s.build ∧ t.svf.length = s.svf.length ∧ t.lad.length = s.lad.length ∧ t.dly.length = s.dly.length ∧
      t.cho.length = s.cho.length ∧ t.wt.length = s.wt.length ∧ t.fm.length = s.fm.length ∧
      t.ks.length = s.ks.length ∧ t.env.length = s.env.length ∧ t.lfo.length = s.lfo.length

/-- R391, R6: the reset state of the reference block: its instance counts, and a few registers read back as PGET reads
them. -/
def Obligations.ReferenceResetState : Prop :=
  let s := State.reset
  s.svf.length = 4 ∧ s.lad.length = 2 ∧ s.dly.length = 1 ∧ s.cho.length = 2 ∧ s.wt.length = 1 ∧ s.fm.length = 6 ∧
  s.ks.length = 1 ∧ s.env.length = 4 ∧ s.lfo.length = 4 ∧
  s.getParam 0 0 0 = some 0x472C4400 ∧ s.getParam 0 0 4 = some 88200 ∧ s.getParam 1 3 0 = some 0x447A0000 ∧
  s.getParam 1 0 3 = some 0x3F800000 ∧ s.getParam 3 0 0 = some 0x3F570A3D ∧ s.getParam 3 0 25 = some 1117 ∧
  s.getParam 3 0 36 = some 227 ∧ s.getParam 4 0 3 = some 88200 ∧ s.getParam 8 0 2 = some 4096 ∧
  s.getParam 9 3 0 = some 0x3C23D70A ∧ s.getParam 10 3 0 = some 0x3F800000

/-- R393: the whole effect of RESET, and that nothing else changes. -/
def Obligations.ResetClearsTransientState : Prop :=
  ∀ s : State, ∃ t, exec .reset s = .next t ∧
    (∀ (n : Nat) (u : Svf), s.svf[n]? = some u →
      t.svf[n]? = some { u with low := 0, band := 0, high := 0, notch := 0 }) ∧
    (∀ (n : Nat) (u : Lad), s.lad[n]? = some u →
      t.lad[n]? = some { u with stage := #v[0, 0, 0, 0], delay := #v[0, 0, 0, 0] }) ∧
    (∀ c : Fin 8, t.rev.combs[c].lo = 0 ∧ t.rev.combs[c].idx = 0 ∧ ∀ i, t.word (.comb c) i = 0) ∧
    (∀ a : Fin 4, t.rev.aps[a].idx = 0 ∧ ∀ i, t.word (.ap a) i = 0) ∧
    (t.rev.fb = s.rev.fb ∧ t.rev.room = s.rev.room ∧ t.rev.damp = s.rev.damp ∧ t.rev.wet = s.rev.wet ∧
      t.rev.apfb = s.rev.apfb) ∧
    (∀ (n : Nat) (u : Dly), s.dly[n]? = some u →
      (∃ m, t.dly[n]? = some { u with wptr := 0, buf := m }) ∧ ∀ i, i < u.size → t.word (.dly n) i = 0) ∧
    (∀ (n : Nat) (u : Cho), s.cho[n]? = some u →
      (∃ m, t.cho[n]? = some { u with wptr := 0, lfoph := 0, buf := m }) ∧ ∀ i, t.word (.cho n) i = 0) ∧
    (∀ (n : Nat) (u : Fm), s.fm[n]? = some u → t.fm[n]? = some { u with phase := 0, last := 0 }) ∧
    (∀ (n : Nat) (u : Ks), s.ks[n]? = some u →
      (∃ m, t.ks[n]? = some { u with cursor := 0, last := 0, buf := m }) ∧ ∀ i, i < u.size → t.word (.ks n) i = 0) ∧
    (∀ (n : Nat) (u : Env), s.env[n]? = some u → t.env[n]? = some { u with level := 0, stage := .off }) ∧
    (∀ (n : Nat) (u : Lfo), s.lfo[n]? = some u → t.lfo[n]? = some { u with phase := 0 }) ∧
    sameBut [.svf, .lad, .rev, .dly, .cho, .fm, .ks, .env, .lfo] s t

/-- R394: RESET twice in a row leaves the same state as RESET once. -/
def Obligations.ResetTwiceIsOnce : Prop :=
  ∀ s t : State, exec .reset s = .next t → exec .reset t = .next t

/-- R395: RESET makes any two states that agree on what it keeps agree on everything a rule can read, and from then on every
step keeps them in agreement: the same data registers, the same STATUS, the same words returned to the host. -/
def Obligations.ResetForgetsThePast : Prop :=
  (∀ s t s' t' : State, keptEqual s t → exec .reset s = .next s' → exec .reset t = .next t' → agree s' t') ∧
  (∀ s t s' t' : State, s.buffersSound → t.buffersSound → agree s t → step s = .next s' → step t = .next t' →
    agree s' t')

/-! ### Control commands (40_control.md) -/

/-- R140: NOP changes no unit state and no data register; the CMD readback still records the word. Opcode 0x00 with any of
bits 25:0 set is no NOP. -/
def Obligations.NopRecordsOnlyItsWord : Prop :=
  (∀ s : State, exec .nop s = .next s ∧
    ∀ (early : Bool) (es : List HostEvent),
      s.host = .access (.write 0x40 [0, 0, 0, 0]) early :: es → overlapping es = [] → s.status.busy = false →
      step s = .next { s with host := es, cmd := 0 }) ∧
  ∀ w : Word, w.extractLsb' 26 6 = 0 → w ≠ 0 → decode w = .error .mustBeZero

/-- R142, R160: PREP with a finite positive rate sets GLB.SR and rederives F and QC of every SVF instance; it changes nothing
else. A NaN, infinite, zero, negative or `-0.0` rate raises E_PARAM_RANGE. -/
def Obligations.PrepSetsRateAndRederives : Prop :=
  ∀ (s1 : Reg) (s : State),
    (isFinite (s.getX s1) = true ∧ fLt 0x00000000 (s.getX s1) = true →
      ∃ t, exec (.prep s1) s = .next t ∧ t.sr = s.getX s1 ∧ t.svf.length = s.svf.length ∧
        (∀ (n : Nat) (u : Svf), s.svf[n]? = some u → ∃ q : Nat → Word,
          let c := minF u.fc (fMul (q 0) 0x3EFAE148 t.sr)
          let a := fDiv (q 2) (fMul (q 1) 0x40490FDB c) t.sr
          t.svf[n]? = some { u with
            f := fMul (q 4) 0x40000000 (sinF s.build.trig (q 3) a)
            qc := fDiv (q 5) 0x3F800000 (maxF u.q 0x3F000000) }) ∧
        frame [.sr, .svf, .draws] [] noStore s t) ∧
    (¬ (isFinite (s.getX s1) = true ∧ fLt 0x00000000 (s.getX s1) = true) →
      exec (.prep s1) s = .next (s.record .paramRange 0x02))

/-- R144: PSET of a legal value stores exactly the bits of the source register: PGET of that parameter returns them, every
other parameter but the derived F and QC of that SVF instance keeps its value, and nothing else changes. -/
def Obligations.PsetStoresTheParameter : Prop :=
  ∀ (n : Nat) (s1 : Reg) (u p : Nat) (s : State),
    u < 11 → n < s.count u → access u p = some .rw → s.legal u n p (s.getX s1) = true →
    ∃ t, exec (.pset n s1 u p) s = .next t ∧ t.getParam u n p = some (s.getX s1) ∧
      (∀ u' n' p', n' < s.count u' → ¬ (u' = u ∧ n' = n ∧ p' = p) →
        ¬ (u = 1 ∧ u' = 1 ∧ n' = n ∧ (p' = 2 ∨ p' = 3)) → t.getParam u' n' p' = s.getParam u' n' p') ∧
      frame (.draws :: classPart u) [] noStore s t

/-- R161: PSET of SVF FC or Q rederives that instance's F and QC by R160, from the value just stored. -/
def Obligations.PsetRederivesSvf : Prop :=
  ∀ (n : Nat) (s1 : Reg) (p : Nat) (s : State) (u : Svf),
    s.svf[n]? = some u → p < 2 → s.legal 1 n p (s.getX s1) = true →
    ∃ t, exec (.pset n s1 1 p) s = .next t ∧
      ∃ (q : Nat → Word) (u' : Svf), t.svf[n]? = some u' ∧
        u'.fc = (if p = 0 then s.getX s1 else u.fc) ∧ u'.q = (if p = 1 then s.getX s1 else u.q) ∧
        (let c := minF u'.fc (fMul (q 0) 0x3EFAE148 s.sr)
         let a := fDiv (q 2) (fMul (q 1) 0x40490FDB c) s.sr
         u'.f = fMul (q 4) 0x40000000 (sinF s.build.trig (q 3) a)) ∧
        u'.qc = fDiv (q 5) 0x3F800000 (maxF u'.q 0x3F000000) ∧
        u'.low = u.low ∧ u'.band = u.band ∧ u'.high = u.high ∧ u'.notch = u.notch ∧ sameListBut n s.svf t.svf

/-- R144, R356: the checks of PSET in their order. -/
def Obligations.PsetChecksInOrder : Prop :=
  ∀ (n : Nat) (s1 : Reg) (u p : Nat) (s : State),
    (11 ≤ u → exec (.pset n s1 u p) s = .next (s.record .badParam 0x03)) ∧
    (u < 11 → s.count u ≤ n → exec (.pset n s1 u p) s = .next (s.record .badInst 0x03)) ∧
    (u < 11 → n < s.count u → access u p = none → exec (.pset n s1 u p) s = .next (s.record .badParam 0x03)) ∧
    (u < 11 → n < s.count u → access u p = some .ro → exec (.pset n s1 u p) s = .next (s.record .paramRO 0x03)) ∧
    (u < 11 → n < s.count u → access u p = some .rw → s.legal u n p (s.getX s1) = false →
      exec (.pset n s1 u p) s = .next (s.record .paramRange 0x03))

/-- R145: PGET writes the parameter's 32 bits to `x[d]` and changes nothing else; its checks in their order. -/
def Obligations.PgetReadsTheParameter : Prop :=
  ∀ (n : Nat) (d : Reg) (u p : Nat) (s : State),
    (∀ a, u < 11 → n < s.count u → access u p = some a →
      ∃ t v, s.getParam u n p = some v ∧ exec (.pget n d u p) s = .next t ∧ t.getX d = v ∧
        frame [.x] [d] noStore s t) ∧
    (11 ≤ u → exec (.pget n d u p) s = .next (s.record .badParam 0x04)) ∧
    (u < 11 → s.count u ≤ n → exec (.pget n d u p) s = .next (s.record .badInst 0x04)) ∧
    (u < 11 → n < s.count u → access u p = none → exec (.pget n d u p) s = .next (s.record .badParam 0x04))

/-! ### Filters (41_filters.md) -/

/-- R162 to R165, R167: one step of the Chamberlin recurrence, whichever output is selected, and the selected output; the
checks first. -/
def Obligations.SvfStepAndOutput : Prop :=
  ∀ (n : Nat) (d s1 : Reg) (s : State),
    (∀ i ∈ [Instr.svfLp n d s1, .svfBp n d s1, .svfHp n d s1, .svfNotch n d s1], refusals i s.svf.length n [s1] s) ∧
    ∀ u : Svf, s.svf[n]? = some u → isFinite (s.getX s1) = true →
    ∃ u' : Svf,
      u'.low = fAdd (s.nan 1) u.low (fMul (s.nan 0) u.f u.band) ∧
      u'.high = fSub (s.nan 4) (fSub (s.nan 2) (s.getX s1) u'.low) (fMul (s.nan 3) u.qc u.band) ∧
      u'.band = fAdd (s.nan 6) u.band (fMul (s.nan 5) u.f u'.high) ∧
      u'.notch = fAdd (s.nan 7) u'.low u'.high ∧
      u'.fc = u.fc ∧ u'.q = u.q ∧ u'.f = u.f ∧ u'.qc = u.qc ∧
      ∀ (i : Instr) (out : Word),
        (i = .svfLp n d s1 ∧ out = u'.low ∨ i = .svfBp n d s1 ∧ out = u'.band ∨
          i = .svfHp n d s1 ∧ out = u'.high ∨ i = .svfNotch n d s1 ∧ out = u'.notch) →
        ∃ t, exec i s = .next t ∧ t.svf[n]? = some u' ∧ t.getX d = out ∧ sameListBut n s.svf t.svf ∧
          frame [.x, .svf, .draws] [d] noStore s t

/-- R170: one ladder step; the checks first. -/
def Obligations.LadderStep : Prop :=
  ∀ (n : Nat) (d s1 : Reg) (s : State), refusals (.lad n d s1) s.lad.length n [s1] s ∧
    ∀ u : Lad, s.lad[n]? = some u → isFinite (s.getX s1) = true →
    ∃ t u', exec (.lad n d s1) s = .next t ∧ t.lad[n]? = some u' ∧
      (let sigma := tanhF s.build.trig (s.nan 1) (fMul (s.nan 0) u.fb u.stage[3])
       u'.delay[0] = tanhF s.build.trig (s.nan 3) (fSub (s.nan 2) (s.getX s1) sigma)) ∧
      u'.stage[0] = fSub (s.nan 4) u'.delay[0] u.delay[0] ∧ u'.delay[1] = u'.stage[0] ∧
      u'.stage[1] = fSub (s.nan 5) u'.delay[1] u.delay[1] ∧ u'.delay[2] = u'.stage[1] ∧
      u'.stage[2] = fSub (s.nan 6) u'.delay[2] u.delay[2] ∧ u'.delay[3] = u'.stage[2] ∧
      u'.stage[3] = fSub (s.nan 7) u'.delay[3] u.delay[3] ∧
      u'.fb = u.fb ∧ t.getX d = u'.stage[3] ∧ sameListBut n s.lad t.lad ∧ frame [.x, .lad, .draws] [d] noStore s t

/-- R170: the ladder's output is always finite: `|STAGEi| ≤ 2^(i+1)` (and `|DELAYi| ≤ 2^i`) is kept by every LAD command with
a finite FB, and, for all ladders at once, by every step of the machine; for every `tanhF` that meets R13. -/
def Obligations.LadderStaysBounded : Prop :=
  (∀ (n : Nat) (d s1 : Reg) (s t : State) (u u' : Lad),
    s.lad[n]? = some u → isFinite u.fb = true → u.bounded → exec (.lad n d s1) s = .next t → t.lad[n]? = some u' →
    u'.bounded ∧ isFinite u'.stage[3] = true) ∧
  ∀ s t : State, s.paramsLegal → (∀ u ∈ s.lad, u.bounded) → step s = .next t → ∀ u ∈ t.lad, u.bounded

/-! ### Reverb (42_reverb.md) -/

/-- R190 to R193: one reverb step: every comb, the scaled sum, every allpass, the output; the checks first. -/
def Obligations.ReverbStep : Prop :=
  ∀ (d s1 : Reg) (s : State), (∀ n, refusals (.rev n d s1) 1 n [s1] s) ∧
    (s.buffersSound → isFinite (s.getX s1) = true →
    ∃ t, exec (.rev 0 d s1) s = .next t ∧
      (∀ c : Fin 8,
        let u := s.rev.combs[c]
        let u' := t.rev.combs[c]
        let y := s.word (.comb c) u.idx
        let q := fun k => s.nan (8 * c.val + k)
        u'.lo = fAdd (q 3) (fMul (q 1) y (fSub (q 0) 0x3F800000 s.rev.damp)) (fMul (q 2) u.lo s.rev.damp) ∧
        t.word (.comb c) u.idx =
          fAdd (q 6) (s.getX s1) (fMul (q 5) (fMul (q 4) u'.lo s.rev.fb) s.rev.room) ∧
        u'.idx = (u.idx + 1) % s.build.combLen[c]) ∧
      (∃ (acc : Fin 9 → Word) (sig : Fin 5 → Word),
        acc 0 = 0 ∧
        (∀ c : Fin 8, acc c.succ =
          fAdd (s.nan (8 * c.val + 7)) (acc c.castSucc) (s.word (.comb c) s.rev.combs[c].idx)) ∧
        sig 0 = fMul (s.nan 64) (acc 8) 0x3E000000 ∧
        (∀ a : Fin 4,
          let u := s.rev.aps[a]
          let bo := s.word (.ap a) u.idx
          let q := fun k => s.nan (65 + 4 * a.val + k)
          let isum := fAdd (q 1) (sig a.castSucc) (fMul (q 0) bo s.rev.apfb)
          t.word (.ap a) u.idx = isum ∧ sig a.succ = fSub (q 3) bo (fMul (q 2) isum s.rev.apfb) ∧
          t.rev.aps[a].idx = (u.idx + 1) % s.build.apLen[a]) ∧
        t.getX d = fMul (s.nan 81) (sig 4) s.rev.wet) ∧
      t.rev.fb = s.rev.fb ∧ t.rev.room = s.rev.room ∧ t.rev.damp = s.rev.damp ∧ t.rev.wet = s.rev.wet ∧
      t.rev.apfb = s.rev.apfb ∧
      frame [.x, .rev, .draws] [d]
        (fun b i => (∃ c : Fin 8, b = .comb c ∧ i = s.rev.combs[c].idx) ∨ ∃ a : Fin 4, b = .ap a ∧ i = s.rev.aps[a].idx)
        s t)

/-! ### Delay lines (43_delay.md) -/

/-- R211: one delay-line step: the word read is `(w − D) mod L`, read before the write at `w`; the checks first. -/
def Obligations.DelayLineStep : Prop :=
  ∀ (n : Nat) (d s1 : Reg) (s : State), refusals (.dly n d s1) s.dly.length n [s1] s ∧
    ∀ u : Dly, s.buffersSound → s.dly[n]? = some u → isFinite (s.getX s1) = true →
    ∃ (t : State) (r : Nat), exec (.dly n d s1) s = .next t ∧ (r : Int) = ((u.wptr : Int) - u.delay) % u.size ∧
      (let dl := s.word (.dly n) r
       t.word (.dly n) u.wptr = fAdd (s.nan 1) (s.getX s1) (fMul (s.nan 0) dl u.fb) ∧
       t.getX d = fAdd (s.nan 5) (fMul (s.nan 3) (s.getX s1) (fSub (s.nan 2) 0x3F800000 u.mix)) (fMul (s.nan 4) dl u.mix)) ∧
      (∃ m, t.dly[n]? = some { u with wptr := (u.wptr + 1) % u.size, buf := m }) ∧ sameListBut n s.dly t.dly ∧
      frame [.x, .dly, .draws] [d] (fun b i => b = .dly n ∧ i = u.wptr) s t

/-- R212: DLYSZ with a length in `[1, DLY_MAX]` sets SIZE, clears words 0 … m−1 and WPTR, and clamps DELAY; outside it raises
E_SIZE. That the words at `m` and above are kept is the model's choice (notes/assumptions/10.md). -/
def Obligations.DelayLineResize : Prop :=
  ∀ (n : Nat) (s1 : Reg) (s : State), refusals (.dlysz n s1) s.dly.length n [] s ∧
    ∀ u : Dly, s.dly[n]? = some u →
    let m := (s.getX s1).toNat
    (1 ≤ m → m ≤ s.build.dlyMax →
      ∃ t, exec (.dlysz n s1) s = .next t ∧
        (∃ buf, t.dly[n]? = some { u with
          size := m, wptr := 0, delay := if m < u.delay then m else u.delay, buf := buf }) ∧
        (∀ i, i < m → t.word (.dly n) i = 0) ∧ sameListBut n s.dly t.dly ∧
        frame [.dly] [] (fun b i => b = .dly n ∧ i < m) s t) ∧
    (m < 1 ∨ s.build.dlyMax < m → exec (.dlysz n s1) s = .next (s.record .size 0x11))

/-- R216: one chorus step; the checks first. -/
def Obligations.ChorusStep : Prop :=
  ∀ (n : Nat) (d s1 : Reg) (s : State), refusals (.cho n d s1) s.cho.length n [s1] s ∧
    ∀ u : Cho, s.buffersSound → s.cho[n]? = some u → isFinite (s.getX s1) = true →
    ∃ (t : State) (ka kb : Nat), exec (.cho n d s1) s = .next t ∧
      t.word (.cho n) u.wptr = s.getX s1 ∧
      (let m := sinF s.build.trig (s.nan 1) (fMul (s.nan 0) 0x40C90FDB u.lfoph)
       let dd := minF (maxF (fAdd (s.nan 3) u.base (fMul (s.nan 2) u.depth m)) 0x00000000) 0x457FE000
       let k := toInt (floorF dd)
       let fr := fSub (s.nan 4) dd (floorF dd)
       let a := t.word (.cho n) ka
       let b := t.word (.cho n) kb
       let dl := fAdd (s.nan 7) a (fMul (s.nan 6) fr (fSub (s.nan 5) b a))
       (ka : Int) = ((u.wptr : Int) - k) % 4096 ∧ (kb : Int) = ((u.wptr : Int) - k - 1) % 4096 ∧
       t.getX d =
         fAdd (s.nan 14) (fMul (s.nan 12) (s.getX s1) (fSub (s.nan 11) 0x3F800000 u.mix)) (fMul (s.nan 13) dl u.mix)) ∧
      (∃ buf, t.cho[n]? = some { u with
        wptr := (u.wptr + 1) % 4096
        lfoph := wrap (s.nan 10) (fAdd (s.nan 9) u.lfoph (fDiv (s.nan 8) u.rate s.sr))
        buf := buf }) ∧
      sameListBut n s.cho t.cho ∧ frame [.x, .cho, .draws] [d] (fun b i => b = .cho n ∧ i = u.wptr) s t

/-- R216: the clamp keeps the chorus delay in `[0, 4094]` whatever legal BASE, DEPTH and LFOPH are, so `b` never reads the
word just written. -/
def Obligations.ChorusDelayClamped : Prop :=
  ∀ (t : Trig) (q : Nat → Word) (u : Cho), nonnegSet u.base = true → nonnegSet u.depth = true →
    unitOpenSet u.lfoph = true →
    let dd := choDelay t q u
    isFinite dd = true ∧ fLe 0x00000000 dd = true ∧ fLe dd 0x457FE000 = true ∧ toInt (floorF dd) ≤ 4094

/-! ### Wavetable (44_wavetable.md) -/

/-- R242 to R244, R246: the tables and samples a WT command reads, and the interpolated output; the checks first. -/
def Obligations.WavetableSample : Prop :=
  ∀ (n : Nat) (d s1 : Reg) (s : State), refusals (.wt n d s1) s.wt.length n [s1] s ∧
    ∀ u : Wt, s.wt[n]? = some u → isFinite (s.getX s1) = true →
    ∃ t, exec (.wt n d s1) s = .next t ∧
      (let A := toInt (floorF u.morph)
       let B := (A + 1) % s.build.numTables
       let g := fSub (s.nan 0) u.morph (floorF u.morph)
       let xs := fMul (s.nan 2) (wrap (s.nan 1) (s.getX s1)) (toF s.build.tableSize)
       let i0 := toInt (floorF xs) % s.build.tableSize
       let i1 := (i0 + 1) % s.build.tableSize
       let fr := fSub (s.nan 3) xs (floorF xs)
       let a0 := wtRom s.build A i0
       let a1 := wtRom s.build A i1
       let b0 := wtRom s.build B i0
       let b1 := wtRom s.build B i1
       let sA := fAdd (s.nan 6) a0 (fMul (s.nan 5) fr (fSub (s.nan 4) a1 a0))
       let sB := fAdd (s.nan 9) b0 (fMul (s.nan 8) fr (fSub (s.nan 7) b1 b0))
       t.getX d = fAdd (s.nan 12) sA (fMul (s.nan 11) g (fSub (s.nan 10) sB sA))) ∧
      frame [.x, .draws] [d] noStore s t

/-- R245: WT at phase 1.0 equals WT at phase 0.0, for every instance and morph position. -/
def Obligations.WavetableIsPeriodic : Prop :=
  ∀ (n : Nat) (d s1 : Reg) (s s0 t t0 : State),
    s.getX s1 = 0x3F800000 → s0 = s.putX s1 0 → exec (.wt n d s1) s = .next t → exec (.wt n d s1) s0 = .next t0 →
    n < s.wt.length → t.getX d = t0.getX d

/-- R245: at MORPH = 0 the output is the time-interpolated value of table 0, and at `NUM_TABLES − 1` that of the last table,
equal as IEEE values, when every table word is in `[-1, 1]`. -/
def Obligations.WavetableMorphEnds : Prop :=
  ∀ (n : Nat) (d s1 : Reg) (s t : State) (u : Wt), buildSound s.build →
    (∀ i j, absAtMost 0x3F800000 (wtRom s.build i j)) → s.wt[n]? = some u → isFinite (s.getX s1) = true →
    u.morph = 0 ∨ u.morph = toF (s.build.numTables - 1) → exec (.wt n d s1) s = .next t →
    let A := if u.morph = 0 then 0 else s.build.numTables - 1
    let xs := fMul (s.nan 2) (wrap (s.nan 1) (s.getX s1)) (toF s.build.tableSize)
    let i0 := toInt (floorF xs) % s.build.tableSize
    let a0 := wtRom s.build A i0
    let a1 := wtRom s.build A ((i0 + 1) % s.build.tableSize)
    ieeeEq (t.getX d) (fAdd (s.nan 6) a0 (fMul (s.nan 5) (fSub (s.nan 3) xs (floorF xs)) (fSub (s.nan 4) a1 a0)))

/-! ### FM and strings (45_fm.md, 46_karplus.md) -/

/-- R261, R262: one operator sample: the output at the phase before the advance, LAST before AMP, the advanced PHASE; the
checks first. -/
def Obligations.FmSample : Prop :=
  ∀ (n : Nat) (d s1 s2 : Reg) (s : State), refusals (.fm n d s1 s2) s.fm.length n [s1, s2] s ∧
    ∀ u : Fm, s.fm[n]? = some u →
    isFinite (s.getX s1) = true → isFinite (s.getX s2) = true →
    ∃ t u', exec (.fm n d s1 s2) s = .next t ∧ t.fm[n]? = some u' ∧
      (let a := fAdd (s.nan 2) (fAdd (s.nan 0) u.phase (s.getX s1)) (fMul (s.nan 1) u.last u.fbk)
       u'.last = sinF s.build.trig (s.nan 4) (fMul (s.nan 3) 0x40C90FDB a)) ∧
      u'.phase =
        wrap (s.nan 8) (fAdd (s.nan 7) u.phase (fDiv (s.nan 6) (fMul (s.nan 5) u.ratio (s.getX s2)) s.sr)) ∧
      u'.ratio = u.ratio ∧ u'.amp = u.amp ∧ u'.fbk = u.fbk ∧
      t.getX d = fMul (s.nan 9) u'.last u.amp ∧ sameListBut n s.fm t.fm ∧ frame [.x, .fm, .draws] [d] noStore s t

/-- R281: one string-loop sample: the oldest word comes out, the filtered feedback and the excitation go in; the checks
first. -/
def Obligations.StringSample : Prop :=
  ∀ (n : Nat) (d s1 : Reg) (s : State), refusals (.ks n d s1) s.ks.length n [s1] s ∧
    ∀ u : Ks, s.buffersSound → s.ks[n]? = some u → isFinite (s.getX s1) = true →
    ∃ t, exec (.ks n d s1) s = .next t ∧
      (let out := s.word (.ks n) u.cursor
       let flt := fMul (s.nan 4) u.fb
         (fAdd (s.nan 3) (fMul (s.nan 1) out (fSub (s.nan 0) 0x3F800000 u.damp)) (fMul (s.nan 2) u.last u.damp))
       t.getX d = out ∧ t.word (.ks n) u.cursor = fAdd (s.nan 5) (s.getX s1) flt ∧
       ∃ m, t.ks[n]? = some { u with last := out, cursor := (u.cursor + 1) % u.size, buf := m }) ∧
      sameListBut n s.ks t.ks ∧ frame [.x, .ks, .draws] [d] (fun b i => b = .ks n ∧ i = u.cursor) s t

/-- R282, R283: KSF with a finite positive frequency whose rounded period `m` is in `[1, KS_MAX]` sets FREQ, and resizes and
clears the string exactly when `m` is not its size; what KSF refuses. That a resize keeps the words at `m` and above is the
model's choice (notes/assumptions/10.md). -/
def Obligations.StringRetune : Prop :=
  ∀ (n : Nat) (s1 : Reg) (s : State), refusals (.ksf n s1) s.ks.length n [] s ∧
    ∀ u : Ks, s.ks[n]? = some u →
    let fq := s.getX s1
    let v := fDiv (s.nan 0) s.sr fq
    let m := roundHalfAway v
    (isFinite fq = true → fLt 0x00000000 fq = true → isFinite v = true → 1 ≤ m → m ≤ s.build.ksMax →
      ∃ t, exec (.ksf n s1) s = .next t ∧
        (m = u.size → t.ks[n]? = some { u with freq := fq }) ∧
        (m ≠ u.size →
          (∃ buf, t.ks[n]? = some { u with freq := fq, size := m, cursor := 0, last := 0, buf := buf }) ∧
          ∀ i, i < m → t.word (.ks n) i = 0) ∧
        sameListBut n s.ks t.ks ∧ frame [.ks] [] (fun b i => b = .ks n ∧ m ≠ u.size ∧ i < m) s t) ∧
    (¬ (isFinite fq = true ∧ fLt 0x00000000 fq = true) → exec (.ksf n s1) s = .next (s.record .paramRange 0x1D)) ∧
    (isFinite fq = true → fLt 0x00000000 fq = true → isFinite v = false ∨ m < 1 ∨ s.build.ksMax < m →
      exec (.ksf n s1) s = .next (s.record .size 0x1D))

/-! ### Modulation (47_envelope_lfo.md) -/

/-- R301 to R303: one envelope sample: the gate transition, then the ramp of the stage reached; the check first. -/
def Obligations.EnvelopeSample : Prop :=
  ∀ (n : Nat) (d : Reg) (g : Bool) (s : State), refusals (.env n d g) s.env.length n [] s ∧
    ∀ u : Env, s.env[n]? = some u →
    ∃ t u' st, exec (.env n d g) s = .next t ∧ t.env[n]? = some u' ∧
      (g = true → (u.stage = .off ∨ u.stage = .release) → st = Stage.attack) ∧
      (g = true → u.stage ≠ .off → u.stage ≠ .release → st = u.stage) ∧
      (g = false → u.stage = .off → st = .off) ∧
      (g = false → u.stage ≠ .off → st = .release) ∧
      (st = .off → u'.stage = .off ∧ u'.level = 0x00000000) ∧
      (st = .attack →
        let lv := fAdd (s.nan 2) u.level (fDiv (s.nan 1) 0x3F800000 (fMul (s.nan 0) u.att s.sr))
        (fLe 0x3F800000 lv = true → u'.stage = .decay ∧ u'.level = 0x3F800000) ∧
        (fLe 0x3F800000 lv = false → u'.stage = .attack ∧ u'.level = lv)) ∧
      (st = .decay →
        let lv := fSub (s.nan 2) u.level (fDiv (s.nan 1) 0x3F800000 (fMul (s.nan 0) u.dec s.sr))
        (fLe lv u.sus = true → u'.stage = .sustain ∧ u'.level = u.sus) ∧
        (fLe lv u.sus = false → u'.stage = .decay ∧ u'.level = lv)) ∧
      (st = .sustain → u'.stage = .sustain ∧ u'.level = u.sus) ∧
      (st = .release →
        let lv := fSub (s.nan 2) u.level (fDiv (s.nan 1) 0x3F800000 (fMul (s.nan 0) u.rel s.sr))
        (fLe lv 0x00000000 = true → u'.stage = .off ∧ u'.level = 0x00000000) ∧
        (fLe lv 0x00000000 = false → u'.stage = .release ∧ u'.level = lv)) ∧
      u'.att = u.att ∧ u'.dec = u.dec ∧ u'.sus = u.sus ∧ u'.rel = u.rel ∧
      t.getX d = u'.level ∧ sameListBut n s.env t.env ∧ frame [.x, .env, .draws] [d] noStore s t

/-- R311: one LFO sample, taken at the phase before the advance; the check first. -/
def Obligations.LfoSample : Prop :=
  ∀ (n : Nat) (d : Reg) (s : State), refusals (.lfo n d) s.lfo.length n [] s ∧
    ∀ u : Lfo, s.lfo[n]? = some u →
    ∃ t, exec (.lfo n d) s = .next t ∧
      t.getX d = sinF s.build.trig (s.nan 1) (fMul (s.nan 0) 0x40C90FDB u.phase) ∧
      t.lfo[n]? = some { u with
        phase := wrap (s.nan 4) (fAdd (s.nan 3) u.phase (fDiv (s.nan 2) u.rate s.sr)) } ∧
      sameListBut n s.lfo t.lfo ∧ frame [.x, .lfo, .draws] [d] noStore s t

/-! ### Mixing (48_mix.md) -/

/-- R331, R332: FADD and FMUL of finite operands; an infinite or NaN operand is refused. -/
def Obligations.AddAndMultiply : Prop :=
  ∀ (d s1 s2 : Reg) (s : State),
    refusals (.fadd d s1 s2) 1 0 [s1, s2] s ∧ refusals (.fmul d s1 s2) 1 0 [s1, s2] s ∧
    (isFinite (s.getX s1) = true → isFinite (s.getX s2) = true →
      (∃ t, exec (.fadd d s1 s2) s = .next t ∧ t.getX d = fAdd (s.nan 0) (s.getX s1) (s.getX s2) ∧
        frame [.x, .draws] [d] noStore s t) ∧
      (∃ t, exec (.fmul d s1 s2) s = .next t ∧ t.getX d = fMul (s.nan 0) (s.getX s1) (s.getX s2) ∧
        frame [.x, .draws] [d] noStore s t))

/-- R334: SCLIP of a finite operand is `tanhF` of it: in `[-1, 1]`, with the sign of the input or zero, for every `tanhF` that
meets R13; an infinite or NaN operand is refused. -/
def Obligations.SoftClip : Prop :=
  ∀ (d s1 : Reg) (s : State), refusals (.sclip d s1) 1 0 [s1] s ∧
    (isFinite (s.getX s1) = true →
    ∃ t, exec (.sclip d s1) s = .next t ∧ t.getX d = tanhF s.build.trig (s.nan 0) (s.getX s1) ∧
      absAtMost 0x3F800000 (t.getX d) ∧
      (isZero (t.getX d) = true ∨ signBit (t.getX d) = signBit (s.getX s1)) ∧
      (isZero (s.getX s1) = true → t.getX d = s.getX s1) ∧
      frame [.x, .draws] [d] noStore s t)

/-! ### Numbers (00_scope.md) -/

/-- R8: addition, subtraction, multiplication and division of finite operands are rounded to nearest, ties to even, and overflow
to the infinity of their sign exactly where rounding to nearest does. A nonzero exact result gives its sign to the result; an
exact zero is `-0.0` for `(-0) + (-0)` and `(-0) - (+0)` alone, and takes the exclusive-or of the signs as a product or quotient
(R331, R332). -/
def Obligations.ArithmeticRoundsToNearest : Prop :=
  ∀ (nan a b : Word), isFinite a = true → isFinite b = true →
    let ok := fun (q : ℚ) (negZero : Bool) (r : Word) =>
      isNaN r = false ∧ (isFinite r = true ↔ |q| < overflowBound) ∧ (isFinite r = true → nearest q r) ∧
      (q < 0 → signBit r = true) ∧ (0 < q → signBit r = false) ∧ (q = 0 → signBit r = negZero)
    ok (valueOf a + valueOf b) (signBit a && signBit b) (fAdd nan a b) ∧
    ok (valueOf a - valueOf b) (signBit a && !signBit b) (fSub nan a b) ∧
    ok (valueOf a * valueOf b) (signBit a ^^ signBit b) (fMul nan a b) ∧
    (isZero b = false → ok (valueOf a / valueOf b) (signBit a ^^ signBit b) (fDiv nan a b))

/-- R14, R16, R17: `floorF` of a finite word is the largest integer at most its value, exactly, and `toInt` gives it as an integer
where it is in `[0, 2^32)`; `roundHalfAway` of a finite `v ≥ 0` is the nearest integer, halves up; `toF(n)` is exactly `n` for
`n < 2^24`. -/
def Obligations.FloorAndRoundAreExact : Prop :=
  (∀ x : Word, isFinite x = true →
    (isFinite (floorF x) = true ∧ valueOf (floorF x) = (⌊valueOf x⌋ : ℚ)) ∧
    (0 ≤ valueOf x → valueOf x < 2 ^ 32 → (toInt (floorF x) : Int) = ⌊valueOf x⌋) ∧
    (fLe 0x00000000 x = true →
      (roundHalfAway x : ℚ) - 1 / 2 ≤ valueOf x ∧ valueOf x < (roundHalfAway x : ℚ) + 1 / 2)) ∧
  ∀ n : Nat, n < 2 ^ 24 → isFinite (toF n) = true ∧ valueOf (toF n) = (n : ℚ)

/-- R15: `wrap` maps any binary32 to `[0, 1)`: a non-finite argument to 0.0, any other to `x - floorF(x)`, or to 0.0 when
that rounds to 1.0. -/
def Obligations.WrapIntoUnitInterval : Prop :=
  ∀ nan x : Word,
    unitOpenSet (wrap nan x) = true ∧
    (isFinite x = false → wrap nan x = 0) ∧
    (isFinite x = true →
      let y := fSub nan x (floorF x)
      (fLe 0x3F800000 y = true → wrap nan x = 0) ∧ (fLe 0x3F800000 y = false → wrap nan x = y))

/-- R13 (a) to (e) of every pair `sinF`, `tanhF` of the model: a result depends on `x` alone, but for the bits of a NaN
(93_implementation_defined.md I25). -/
def Obligations.SineAndTanhProperties : Prop :=
  ∀ (t : Trig) (q q' x : Word),
    (sinF t q x = sinF t q' x ∨ (isNaN (sinF t q x) = true ∧ isNaN (sinF t q' x) = true)) ∧
    (tanhF t q x = tanhF t q' x ∨ (isNaN (tanhF t q x) = true ∧ isNaN (tanhF t q' x) = true)) ∧
    (isZero x = true → sinF t q x = x ∧ tanhF t q x = x) ∧
    (isFinite x = true → absAtMost 0x3F800000 (sinF t q x) ∧ absAtMost 0x3F800000 (tanhF t q x)) ∧
    (isNaN x = false → tanhF t q (negF x) = negF (tanhF t q x)) ∧
    (isFinite x = true → fLt 0x00000000 x = true → fLe 0x00000000 (tanhF t q x) = true) ∧
    (isNaN x = true → isNaN (sinF t q x) = true ∧ isNaN (tanhF t q x) = true) ∧
    isNaN (sinF t q 0x7F800000) = true ∧ isNaN (sinF t q 0xFF800000) = true ∧
    tanhF t q 0x7F800000 = 0x3F800000 ∧ tanhF t q 0xFF800000 = 0xBF800000

/-! ### Invariants of every step -/

/-- R81, R46 to R50: every step keeps sizes within the capacities, every cursor and index inside its buffer, and every buffer
memory in canonical form. -/
def Obligations.StepKeepsBuffersSound : Prop :=
  ∀ s t : State, s.buffersSound → step s = .next t → t.buffersSound

/-- R40: no step lets an RW parameter hold an illegal value, and SR stays finite and positive. -/
def Obligations.StepKeepsParametersLegal : Prop :=
  ∀ s t : State, buildSound s.build → s.paramsLegal → step s = .next t → t.paramsLegal

/-- R34, R36, R353: after every step BUSY is 0, CAUSE and ERROP are 0 when ERR = 0, and CAUSE is one of the codes 1 to 9 when
ERR = 1. -/
def Obligations.StepKeepsStatusConsistent : Prop :=
  ∀ s t : State, s.statusConsistent → step s = .next t →
    t.statusConsistent ∧ (t.status.err = true → 1 ≤ t.status.cause.toNat ∧ t.status.cause.toNat ≤ 9)

/-- R302: LEVEL is always in `[0, 1]`. -/
def Obligations.StepKeepsEnvelopeLevels : Prop :=
  ∀ s t : State, buildSound s.build → s.paramsLegal → s.levelsInUnit → step s = .next t → t.levelsInUnit

/-- The reset state meets the four invariants. -/
def Obligations.ResetMeetsInvariants : Prop :=
  State.reset.buffersSound ∧ State.reset.paramsLegal ∧ State.reset.statusConsistent ∧ State.reset.levelsInUnit ∧
  State.reset.countsSound ∧ ∀ u ∈ State.reset.lad, u.bounded

/-! ### Numbers: special operands, comparisons and tables (00_scope.md, 44_wavetable.md) -/

/-- R8 on infinities, NaNs and a zero divisor: which results are an infinity or a zero, and of which sign, and which are NaNs;
the bits of a NaN are whatever NaN is drawn (93_implementation_defined.md I25). -/
def Obligations.ArithmeticOfSpecialOperands : Prop :=
  ∀ nan a b : Word,
    let aNaN := fun r : Word => isNaN r = true ∧ (isNaN nan = true → r = nan)
    let neg := signBit a ^^ signBit b
    let inf : Word := if neg then 0xFF800000 else 0x7F800000
    (isNaN a = true ∨ isNaN b = true →
      aNaN (fAdd nan a b) ∧ aNaN (fSub nan a b) ∧ aNaN (fMul nan a b) ∧ aNaN (fDiv nan a b)) ∧
    (isInf a = true → isFinite b = true →
      fAdd nan a b = a ∧ fAdd nan b a = a ∧ fSub nan a b = a ∧ fSub nan b a = negF a ∧
      (isZero b = false → fMul nan a b = inf ∧ fMul nan b a = inf) ∧
      (isZero b = true → aNaN (fMul nan a b) ∧ aNaN (fMul nan b a)) ∧
      fDiv nan a b = inf ∧ fDiv nan b a = (if neg then 0x80000000 else 0x00000000)) ∧
    (isInf a = true → isInf b = true →
      (neg = false → fAdd nan a b = a ∧ aNaN (fSub nan a b)) ∧
      (neg = true → aNaN (fAdd nan a b) ∧ fSub nan a b = a) ∧
      fMul nan a b = inf ∧ aNaN (fDiv nan a b)) ∧
    (isFinite a = true → isZero b = true →
      (isZero a = false → fDiv nan a b = inf) ∧ (isZero a = true → aNaN (fDiv nan a b)))

/-- R11, R12, on R7's layout: the comparisons order the exact values, with `-0 = +0`, the infinities at the ends, and a NaN
comparing false; `minF` and `maxF` are the selections R12 writes, so that with finite operands they give the smaller and the
larger value. -/
def Obligations.ComparisonsOrderTheValues : Prop :=
  ∀ a b : Word,
    let e := (a.extractLsb' 23 8).toNat
    let f := (a.extractLsb' 0 23).toNat
    (isFinite a = true ↔ e ≠ 255) ∧ (isNaN a = true ↔ e = 255 ∧ f ≠ 0) ∧
    (isFinite a = true →
      valueOf a = (if a.getLsbD 31 then -1 else 1) *
        (if e = 0 then (f : ℚ) / 2 ^ 149 else ((2 : ℚ) ^ 23 + f) * 2 ^ e / 2 ^ 150)) ∧
    (isFinite a = true → isFinite b = true →
      (fLt a b = true ↔ valueOf a < valueOf b) ∧ (fLe a b = true ↔ valueOf a ≤ valueOf b) ∧
      (ieeeEq a b ↔ valueOf a = valueOf b) ∧
      valueOf (minF a b) = min (valueOf a) (valueOf b) ∧ valueOf (maxF a b) = max (valueOf a) (valueOf b)) ∧
    (isNaN a = true ∨ isNaN b = true → fLt a b = false ∧ fLe a b = false ∧ ¬ ieeeEq a b) ∧
    (isNaN a = false → fLe a 0x7F800000 = true ∧ fLe 0xFF800000 a = true) ∧
    (isFinite a = true → fLt a 0x7F800000 = true ∧ fLt 0xFF800000 a = true) ∧
    (isNaN a = false → isNaN b = false → fLt a b = !fLe b a ∧ (ieeeEq a b ↔ fLe a b = true ∧ fLe b a = true)) ∧
    minF a b = (if fLt b a then b else a) ∧ maxF a b = (if fLt a b then b else a) ∧
    minF 0x80000000 0x00000000 = 0x80000000 ∧ maxF 0x80000000 0x00000000 = 0x80000000

/-- R241: in every build with the reference `WT_ROM`, every table word is finite and in `[-1, 1]`, and word 0 of every table is
`0.0`. -/
def Obligations.ReferenceTablesAreBounded : Prop :=
  ∀ b : Build, buildSound b → b.wtRom = .reference →
    romFinite b ∧
    ∀ t i, t < b.numTables → i < b.tableSize → absAtMost 0x3F800000 (wtRom b t i) ∧ wtRom b t 0 = 0x00000000

/-! ### Parameter registers (10_state.md) -/

/-- R41 to R52, R54: the parameter number of each class names the field the table gives it, for every instance; an index or a
class that is not listed names none. -/
def Obligations.ParameterNumbersNameFields : Prop :=
  ∀ (s : State) (n p : Nat),
    let u32 : Nat → Word := BitVec.ofNat 32
    (List.range 12).map s.count =
      [1, s.svf.length, s.lad.length, 1, s.dly.length, s.cho.length, s.wt.length, s.fm.length, s.ks.length,
        s.env.length, s.lfo.length, 0] ∧
    s.getParam 0 0 p =
      [s.sr, u32 s.build.numTables, u32 s.build.tableSize, 4096, u32 s.build.dlyMax, u32 s.build.ksMax][p]? ∧
    (∀ u, s.svf[n]? = some u → s.getParam 1 n p = [u.fc, u.q, u.f, u.qc, u.low, u.band, u.high, u.notch][p]?) ∧
    (∀ u, s.lad[n]? = some u →
      s.getParam 2 n p =
        [u.fb, u.stage[0], u.stage[1], u.stage[2], u.stage[3], u.delay[0], u.delay[1], u.delay[2], u.delay[3]][p]?) ∧
    s.getParam 3 0 p =
      ([s.rev.fb, s.rev.room, s.rev.damp, s.rev.wet, s.rev.apfb] ++ s.rev.combs.toList.map (fun c => c.lo) ++
        s.rev.combs.toList.map (fun c => u32 c.idx) ++ s.rev.aps.toList.map (fun a => u32 a.idx) ++
        s.build.combLen.toList.map u32 ++ s.build.apLen.toList.map u32)[p]? ∧
    (∀ u, s.dly[n]? = some u → s.getParam 4 n p = [u32 u.delay, u.fb, u.mix, u32 u.size, u32 u.wptr][p]?) ∧
    (∀ u, s.cho[n]? = some u → s.getParam 5 n p = [u.rate, u.depth, u.base, u.mix, u.lfoph, u32 u.wptr][p]?) ∧
    (∀ u, s.wt[n]? = some u → s.getParam 6 n p = [u.morph][p]?) ∧
    (∀ u, s.fm[n]? = some u → s.getParam 7 n p = [u.ratio, u.amp, u.fbk, u.phase, u.last][p]?) ∧
    (∀ u, s.ks[n]? = some u → s.getParam 8 n p = [u.fb, u.damp, u32 u.size, u32 u.cursor, u.last, u.freq][p]?) ∧
    (∀ u, s.env[n]? = some u →
      s.getParam 9 n p =
        [u.att, u.dec, u.sus, u.rel, u.level,
          match u.stage with | .off => 0 | .attack => 1 | .decay => 2 | .sustain => 3 | .release => 4][p]?) ∧
    (∀ u, s.lfo[n]? = some u → s.getParam 10 n p = [u.rate, u.phase][p]?) ∧
    ∀ u, 11 ≤ u → s.getParam u n p = none

/-- R42 to R52, R54: the access column and the legal set of every parameter, as the tables give them; the sets are sets of exact
values. -/
def Obligations.ParameterAccessAndLegalSets : Prop :=
  (∀ u p : Nat,
    let row := fun rw ro : Nat => List.replicate rw (some Access.rw) ++ List.replicate ro (some Access.ro)
    access u p =
      ([row 0 6, row 2 6, row 1 8, row 5 32, row 3 2, row 5 1, row 1 0, row 4 1, row 2 4, row 4 2, row 2 0].getD u
        []).getD p none) ∧
  ∀ (s : State) (n : Nat) (v : Word),
    let q := valueOf v
    let is := fun (u p : Nat) (set : Prop) => s.legal u n p v = true ↔ isFinite v = true ∧ set
    (is 1 0 (0 ≤ q) ∧ is 1 1 True) ∧
    is 2 0 True ∧
    (is 3 0 (0 ≤ q ∧ q < 1) ∧ is 3 1 (0 ≤ q ∧ q ≤ 1) ∧ is 3 2 (0 ≤ q ∧ q ≤ 1) ∧ is 3 3 (0 ≤ q ∧ q ≤ 1) ∧
      is 3 4 (-1 < q ∧ q < 1)) ∧
    ((∀ u, s.dly[n]? = some u → (s.legal 4 n 0 v = true ↔ 1 ≤ v.toNat ∧ v.toNat ≤ u.size)) ∧
      is 4 1 (0 ≤ q ∧ q < 1) ∧ is 4 2 (0 ≤ q ∧ q ≤ 1)) ∧
    (is 5 0 (0 ≤ q) ∧ is 5 1 (0 ≤ q) ∧ is 5 2 (0 ≤ q) ∧ is 5 3 (0 ≤ q ∧ q ≤ 1) ∧ is 5 4 (0 ≤ q ∧ q < 1)) ∧
    (buildSound s.build → is 6 0 (0 ≤ q ∧ q ≤ (s.build.numTables : ℚ) - 1)) ∧
    (is 7 0 True ∧ is 7 1 True ∧ is 7 2 True ∧ is 7 3 (0 ≤ q ∧ q < 1)) ∧
    (is 8 0 (0 ≤ q ∧ q < 1) ∧ is 8 1 (0 ≤ q ∧ q < 1)) ∧
    (is 9 0 (0 < q) ∧ is 9 1 (0 < q) ∧ is 9 2 (0 ≤ q ∧ q ≤ 1) ∧ is 9 3 (0 < q)) ∧
    (is 10 0 (0 ≤ q) ∧ is 10 1 (0 ≤ q ∧ q < 1))
end

