-- ==== Sys2Proof/Laws/Decode.lean ====
section
/-! SUPPORT. The fields of a packed word, and a packed word under a packed mask (30_encoding.md R101, R106). -/

namespace Sys2Proof

section
variable (op : BitVec 6) (inst rd rs1 rs2 : BitVec 4) (fn : BitVec 10)

@[simp] theorem opField_packWord : opField (packWord op inst rd rs1 rs2 fn) = op := by
  apply BitVec.eq_of_getLsbD_eq
  intro i hi
  simp only [opField, packWord, BitVec.getLsbD_append, BitVec.getLsbD_extractLsb']
  interval_cases i <;> simp

@[simp] theorem instField_packWord : instField (packWord op inst rd rs1 rs2 fn) = inst.toNat := by
  unfold instField
  congr 1
  apply BitVec.eq_of_getLsbD_eq
  intro i hi
  simp only [packWord, BitVec.getLsbD_append, BitVec.getLsbD_extractLsb']
  interval_cases i <;> simp

@[simp] theorem rdField_packWord : rdField (packWord op inst rd rs1 rs2 fn) = rd.toFin := by
  unfold rdField
  congr 1
  apply BitVec.eq_of_getLsbD_eq
  intro i hi
  simp only [packWord, BitVec.getLsbD_append, BitVec.getLsbD_extractLsb']
  interval_cases i <;> simp

@[simp] theorem rs1Field_packWord : rs1Field (packWord op inst rd rs1 rs2 fn) = rs1.toFin := by
  unfold rs1Field
  congr 1
  apply BitVec.eq_of_getLsbD_eq
  intro i hi
  simp only [packWord, BitVec.getLsbD_append, BitVec.getLsbD_extractLsb']
  interval_cases i <;> simp

@[simp] theorem rs2Field_packWord : rs2Field (packWord op inst rd rs1 rs2 fn) = rs2.toFin := by
  unfold rs2Field
  congr 1
  apply BitVec.eq_of_getLsbD_eq
  intro i hi
  simp only [packWord, BitVec.getLsbD_append, BitVec.getLsbD_extractLsb']
  interval_cases i <;> simp

/-- A packed word under a packed mask is packed from the fields under theirs. -/
theorem packWord_and (op' : BitVec 6) (inst' rd' rs1' rs2' : BitVec 4) (fn' : BitVec 10) :
    packWord op inst rd rs1 rs2 fn &&& packWord op' inst' rd' rs1' rs2' fn' =
      packWord (op &&& op') (inst &&& inst') (rd &&& rd') (rs1 &&& rs1') (rs2 &&& rs2') (fn &&& fn') := by
  apply BitVec.eq_of_getLsbD_eq
  intro i hi
  simp only [packWord, BitVec.getLsbD_append, BitVec.getLsbD_and]
  interval_cases i <;> simp

/-- Every word is packed from its fields. -/
theorem packWord_fields (w : Word) :
    packWord (w.extractLsb' 26 6) (w.extractLsb' 22 4) (w.extractLsb' 18 4) (w.extractLsb' 14 4) (w.extractLsb' 10 4)
      (w.extractLsb' 0 10) = w := by
  apply BitVec.eq_of_getLsbD_eq
  intro i hi
  simp only [packWord, BitVec.getLsbD_append, BitVec.getLsbD_extractLsb']
  interval_cases i <;> simp

end

@[simp] theorem regBits_toFin (r : Reg) : (regBits r).toFin = r := rfl

theorem instBits_toNat {n : Nat} (h : instFits n) : (instBits n).toNat = n := by
  simp only [instBits, BitVec.toNat_ofNat]; exact Nat.mod_eq_of_lt h

end Sys2Proof
end

