-- ==== Sys2Proof/Laws/Memory.lean ====
section
/-! SUPPORT. The laws of a buffer memory: read after write, a write leaves every other word alone, clearing, and that every
operation keeps the canonical form and the bound on indices. -/

namespace Sys2Proof.Machine

@[simp] theorem bufRead_nil (i : Nat) : bufRead [] i = Memory.unlisted := rfl

theorem Memory.wf_nil : Memory.wf [] := ⟨List.Pairwise.nil, by simp⟩

theorem Memory.below_nil (n : Nat) : Memory.below [] n := by simp [Memory.below]

/-- The tail of a canonical memory is canonical, and its indices are above the head's. -/
theorem Memory.wf_cons {a : Nat} {x : Word} {m : Memory} :
    Memory.wf ((a, x) :: m) ↔ (∀ c ∈ m, a < c.1) ∧ x ≠ Memory.unlisted ∧ Memory.wf m := by
  simp only [Memory.wf, List.pairwise_cons, List.mem_cons, forall_eq_or_imp]
  tauto

/-- An index below every listed one reads as unlisted. -/
theorem bufRead_of_lt {m : Memory} {i : Nat} (h : ∀ c ∈ m, i < c.1) : bufRead m i = Memory.unlisted := by
  induction m with
  | nil => rfl
  | cons c m ih =>
    have hc := h c (by simp)
    rw [bufRead, if_neg (by omega)]
    exact ih fun d hd => h d (by simp [hd])

theorem bufRead_bufCons_same (i : Nat) (v : Word) (m : Memory) (h : ∀ c ∈ m, i < c.1) :
    bufRead (bufCons i v m) i = v := by
  unfold bufCons
  split
  · next hv => rw [bufRead_of_lt h, hv]
  · simp [bufRead]

theorem bufRead_bufCons_other (i j : Nat) (v : Word) (m : Memory) (h : j ≠ i) :
    bufRead (bufCons i v m) j = bufRead m j := by
  unfold bufCons
  split
  · rfl
  · rw [bufRead, if_neg (Ne.symm h)]

/-- Read after write, same word. -/
theorem bufRead_bufWrite_same {m : Memory} (hm : m.wf) (i : Nat) (v : Word) : bufRead (bufWrite m i v) i = v := by
  induction m with
  | nil => exact bufRead_bufCons_same i v [] (by simp)
  | cons c m ih =>
    obtain ⟨a, x⟩ := c
    obtain ⟨hlt, -, hm⟩ := Memory.wf_cons.mp hm
    rw [bufWrite]
    split
    · next h =>
      refine bufRead_bufCons_same i v _ fun c hc => ?_
      rcases List.mem_cons.mp hc with rfl | hc
      · exact h
      · exact h.trans (hlt c hc)
    · split
      · next h => exact bufRead_bufCons_same i v m fun c hc => h ▸ hlt c hc
      · next h => rw [bufRead, if_neg (Ne.symm h)]; exact ih hm

/-- A write leaves every other word alone. -/
theorem bufRead_bufWrite_other (m : Memory) {i j : Nat} (v : Word) (h : j ≠ i) :
    bufRead (bufWrite m i v) j = bufRead m j := by
  induction m with
  | nil => exact bufRead_bufCons_other i j v [] h
  | cons c m ih =>
    obtain ⟨a, x⟩ := c
    rw [bufWrite]
    split
    · exact bufRead_bufCons_other i j v _ h
    · split
      · next he => rw [bufRead_bufCons_other i j v m h, bufRead, if_neg (he ▸ Ne.symm h)]
      · simp only [bufRead, ih]

theorem bufCons_mem {c : Nat × Word} {i : Nat} {v : Word} {m : Memory} (h : c ∈ bufCons i v m) :
    c.1 = i ∨ c ∈ m := by
  unfold bufCons at h
  split at h
  · exact .inr h
  · rcases List.mem_cons.mp h with rfl | h
    · exact .inl rfl
    · exact .inr h

theorem bufWrite_mem {c : Nat × Word} {i : Nat} {v : Word} {m : Memory} (h : c ∈ bufWrite m i v) :
    c.1 = i ∨ c ∈ m := by
  induction m with
  | nil => exact bufCons_mem h
  | cons d m ih =>
    obtain ⟨a, x⟩ := d
    rw [bufWrite] at h
    split at h
    · exact bufCons_mem h
    · split at h
      · exact (bufCons_mem h).imp_right (List.mem_cons_of_mem _)
      · rcases List.mem_cons.mp h with rfl | h
        · exact .inr (by simp)
        · exact (ih h).imp_right (List.mem_cons_of_mem _)

theorem Memory.wf_bufCons {i : Nat} {v : Word} {m : Memory} (hm : m.wf) (h : ∀ c ∈ m, i < c.1) :
    (bufCons i v m).wf := by
  unfold bufCons
  split
  · exact hm
  · next hv => exact Memory.wf_cons.mpr ⟨h, hv, hm⟩

/-- A write keeps the canonical form. -/
theorem Memory.wf_bufWrite {m : Memory} (hm : m.wf) (i : Nat) (v : Word) : (bufWrite m i v).wf := by
  induction m with
  | nil => exact Memory.wf_bufCons Memory.wf_nil (by simp)
  | cons c m ih =>
    obtain ⟨a, x⟩ := c
    obtain ⟨hlt, hx, hm'⟩ := Memory.wf_cons.mp hm
    rw [bufWrite]
    split
    · next h =>
      refine Memory.wf_bufCons hm fun c hc => ?_
      rcases List.mem_cons.mp hc with rfl | hc
      · exact h
      · exact h.trans (hlt c hc)
    · split
      · next h => exact Memory.wf_bufCons hm' fun c hc => h ▸ hlt c hc
      · next h1 h2 =>
        refine Memory.wf_cons.mpr ⟨fun c hc => ?_, hx, ih hm'⟩
        rcases bufWrite_mem hc with h | h
        · omega
        · exact hlt c h

/-- Clearing keeps the canonical form. -/
theorem Memory.wf_bufClear {m : Memory} (hm : m.wf) (n : Nat) : (bufClear m n).wf :=
  ⟨hm.1.filter _, fun c hc => hm.2 c (List.mem_filter.mp hc).1⟩

theorem Memory.below_bufWrite {m : Memory} {n i : Nat} (hm : m.below n) (hi : i < n) (v : Word) :
    (bufWrite m i v).below n := by
  intro c hc
  rcases bufWrite_mem hc with h | h
  · omega
  · exact hm c h

theorem Memory.below_bufClear {m : Memory} {n : Nat} (hm : m.below n) (k : Nat) : (bufClear m k).below n :=
  fun c hc => hm c (List.mem_filter.mp hc).1

/-- Words `0 … n-1` of a cleared buffer read 0.0. -/
theorem bufRead_bufClear_lt (m : Memory) {n i : Nat} (h : i < n) : bufRead (bufClear m n) i = Memory.unlisted := by
  induction m with
  | nil => rfl
  | cons c m ih =>
    obtain ⟨a, x⟩ := c
    by_cases ha : n ≤ a
    · rw [bufClear, List.filter_cons_of_pos (by simpa using ha), bufRead, if_neg (by omega)]; exact ih
    · rw [bufClear, List.filter_cons_of_neg (by simpa using ha)]; exact ih

/-- The words at `n` and above are left alone. -/
theorem bufRead_bufClear_ge (m : Memory) {n i : Nat} (h : n ≤ i) : bufRead (bufClear m n) i = bufRead m i := by
  induction m with
  | nil => rfl
  | cons c m ih =>
    obtain ⟨a, x⟩ := c
    by_cases ha : n ≤ a
    · rw [bufClear, List.filter_cons_of_pos (by simpa using ha), bufRead, bufRead]; split <;> [rfl; exact ih]
    · rw [bufClear, List.filter_cons_of_neg (by simpa using ha), bufRead, if_neg (by omega)]; exact ih

/-- Clearing twice is clearing once. -/
@[simp] theorem bufClear_bufClear (m : Memory) (n : Nat) : bufClear (bufClear m n) n = bufClear m n := by
  simp [bufClear, List.filter_filter]

/-- A ring position is inside the ring (20_memory.md R83). -/
theorem ringIndex_lt (w d : Nat) {L : Nat} (h : 0 < L) : ringIndex w d L < L := by
  have h1 := Int.emod_nonneg ((w : Int) - d) (by omega : (L : Int) ≠ 0)
  have h2 := Int.emod_lt_of_pos ((w : Int) - d) (by omega : (0 : Int) < L)
  unfold ringIndex
  omega

end Sys2Proof.Machine
end

