-- ==== Sys2Proof/Laws/State.lean ====
section
/-! SUPPORT. Reading each field of a state after each named update of Machine/Ops.lean (one lemma a field and update, all
true by unfolding once), so that no later proof unfolds a record update. -/

namespace Sys2Proof.Machine

variable (s : State)

/-! ### `putX` -/

@[simp] theorem State.putX_x (r : Reg) (v : Word) : (s.putX r v).x = s.x.set r v := rfl
@[simp] theorem State.putX_cmd (r : Reg) (v : Word) : (s.putX r v).cmd = s.cmd := rfl
@[simp] theorem State.putX_status (r : Reg) (v : Word) : (s.putX r v).status = s.status := rfl
@[simp] theorem State.putX_sr (r : Reg) (v : Word) : (s.putX r v).sr = s.sr := rfl
@[simp] theorem State.putX_svf (r : Reg) (v : Word) : (s.putX r v).svf = s.svf := rfl
@[simp] theorem State.putX_lad (r : Reg) (v : Word) : (s.putX r v).lad = s.lad := rfl
@[simp] theorem State.putX_rev (r : Reg) (v : Word) : (s.putX r v).rev = s.rev := rfl
@[simp] theorem State.putX_dly (r : Reg) (v : Word) : (s.putX r v).dly = s.dly := rfl
@[simp] theorem State.putX_cho (r : Reg) (v : Word) : (s.putX r v).cho = s.cho := rfl
@[simp] theorem State.putX_wt (r : Reg) (v : Word) : (s.putX r v).wt = s.wt := rfl
@[simp] theorem State.putX_fm (r : Reg) (v : Word) : (s.putX r v).fm = s.fm := rfl
@[simp] theorem State.putX_ks (r : Reg) (v : Word) : (s.putX r v).ks = s.ks := rfl
@[simp] theorem State.putX_env (r : Reg) (v : Word) : (s.putX r v).env = s.env := rfl
@[simp] theorem State.putX_lfo (r : Reg) (v : Word) : (s.putX r v).lfo = s.lfo := rfl
@[simp] theorem State.putX_build (r : Reg) (v : Word) : (s.putX r v).build = s.build := rfl
@[simp] theorem State.putX_draws (r : Reg) (v : Word) : (s.putX r v).draws = s.draws := rfl
@[simp] theorem State.putX_host (r : Reg) (v : Word) : (s.putX r v).host = s.host := rfl
@[simp] theorem State.putX_reads (r : Reg) (v : Word) : (s.putX r v).reads = s.reads := rfl

/-! ### `putStatus` -/

@[simp] theorem State.putStatus_x (st : Status) : (s.putStatus st).x = s.x := rfl
@[simp] theorem State.putStatus_cmd (st : Status) : (s.putStatus st).cmd = s.cmd := rfl
@[simp] theorem State.putStatus_status (st : Status) : (s.putStatus st).status = st := rfl
@[simp] theorem State.putStatus_sr (st : Status) : (s.putStatus st).sr = s.sr := rfl
@[simp] theorem State.putStatus_svf (st : Status) : (s.putStatus st).svf = s.svf := rfl
@[simp] theorem State.putStatus_lad (st : Status) : (s.putStatus st).lad = s.lad := rfl
@[simp] theorem State.putStatus_rev (st : Status) : (s.putStatus st).rev = s.rev := rfl
@[simp] theorem State.putStatus_dly (st : Status) : (s.putStatus st).dly = s.dly := rfl
@[simp] theorem State.putStatus_cho (st : Status) : (s.putStatus st).cho = s.cho := rfl
@[simp] theorem State.putStatus_wt (st : Status) : (s.putStatus st).wt = s.wt := rfl
@[simp] theorem State.putStatus_fm (st : Status) : (s.putStatus st).fm = s.fm := rfl
@[simp] theorem State.putStatus_ks (st : Status) : (s.putStatus st).ks = s.ks := rfl
@[simp] theorem State.putStatus_env (st : Status) : (s.putStatus st).env = s.env := rfl
@[simp] theorem State.putStatus_lfo (st : Status) : (s.putStatus st).lfo = s.lfo := rfl
@[simp] theorem State.putStatus_build (st : Status) : (s.putStatus st).build = s.build := rfl
@[simp] theorem State.putStatus_draws (st : Status) : (s.putStatus st).draws = s.draws := rfl
@[simp] theorem State.putStatus_host (st : Status) : (s.putStatus st).host = s.host := rfl
@[simp] theorem State.putStatus_reads (st : Status) : (s.putStatus st).reads = s.reads := rfl
@[simp] theorem State.putStatus_getX (st : Status) (q : Reg) : (s.putStatus st).getX q = s.getX q := rfl

/-! ### `putSr` -/

@[simp] theorem State.putSr_x (v : Word) : (s.putSr v).x = s.x := rfl
@[simp] theorem State.putSr_cmd (v : Word) : (s.putSr v).cmd = s.cmd := rfl
@[simp] theorem State.putSr_status (v : Word) : (s.putSr v).status = s.status := rfl
@[simp] theorem State.putSr_sr (v : Word) : (s.putSr v).sr = v := rfl
@[simp] theorem State.putSr_svf (v : Word) : (s.putSr v).svf = s.svf := rfl
@[simp] theorem State.putSr_lad (v : Word) : (s.putSr v).lad = s.lad := rfl
@[simp] theorem State.putSr_rev (v : Word) : (s.putSr v).rev = s.rev := rfl
@[simp] theorem State.putSr_dly (v : Word) : (s.putSr v).dly = s.dly := rfl
@[simp] theorem State.putSr_cho (v : Word) : (s.putSr v).cho = s.cho := rfl
@[simp] theorem State.putSr_wt (v : Word) : (s.putSr v).wt = s.wt := rfl
@[simp] theorem State.putSr_fm (v : Word) : (s.putSr v).fm = s.fm := rfl
@[simp] theorem State.putSr_ks (v : Word) : (s.putSr v).ks = s.ks := rfl
@[simp] theorem State.putSr_env (v : Word) : (s.putSr v).env = s.env := rfl
@[simp] theorem State.putSr_lfo (v : Word) : (s.putSr v).lfo = s.lfo := rfl
@[simp] theorem State.putSr_build (v : Word) : (s.putSr v).build = s.build := rfl
@[simp] theorem State.putSr_draws (v : Word) : (s.putSr v).draws = s.draws := rfl
@[simp] theorem State.putSr_host (v : Word) : (s.putSr v).host = s.host := rfl
@[simp] theorem State.putSr_reads (v : Word) : (s.putSr v).reads = s.reads := rfl
@[simp] theorem State.putSr_getX (v : Word) (q : Reg) : (s.putSr v).getX q = s.getX q := rfl

/-! ### `putSvfs` -/

@[simp] theorem State.putSvfs_x (us : List Svf) : (s.putSvfs us).x = s.x := rfl
@[simp] theorem State.putSvfs_cmd (us : List Svf) : (s.putSvfs us).cmd = s.cmd := rfl
@[simp] theorem State.putSvfs_status (us : List Svf) : (s.putSvfs us).status = s.status := rfl
@[simp] theorem State.putSvfs_sr (us : List Svf) : (s.putSvfs us).sr = s.sr := rfl
@[simp] theorem State.putSvfs_svf (us : List Svf) : (s.putSvfs us).svf = us := rfl
@[simp] theorem State.putSvfs_lad (us : List Svf) : (s.putSvfs us).lad = s.lad := rfl
@[simp] theorem State.putSvfs_rev (us : List Svf) : (s.putSvfs us).rev = s.rev := rfl
@[simp] theorem State.putSvfs_dly (us : List Svf) : (s.putSvfs us).dly = s.dly := rfl
@[simp] theorem State.putSvfs_cho (us : List Svf) : (s.putSvfs us).cho = s.cho := rfl
@[simp] theorem State.putSvfs_wt (us : List Svf) : (s.putSvfs us).wt = s.wt := rfl
@[simp] theorem State.putSvfs_fm (us : List Svf) : (s.putSvfs us).fm = s.fm := rfl
@[simp] theorem State.putSvfs_ks (us : List Svf) : (s.putSvfs us).ks = s.ks := rfl
@[simp] theorem State.putSvfs_env (us : List Svf) : (s.putSvfs us).env = s.env := rfl
@[simp] theorem State.putSvfs_lfo (us : List Svf) : (s.putSvfs us).lfo = s.lfo := rfl
@[simp] theorem State.putSvfs_build (us : List Svf) : (s.putSvfs us).build = s.build := rfl
@[simp] theorem State.putSvfs_draws (us : List Svf) : (s.putSvfs us).draws = s.draws := rfl
@[simp] theorem State.putSvfs_host (us : List Svf) : (s.putSvfs us).host = s.host := rfl
@[simp] theorem State.putSvfs_reads (us : List Svf) : (s.putSvfs us).reads = s.reads := rfl
@[simp] theorem State.putSvfs_getX (us : List Svf) (q : Reg) : (s.putSvfs us).getX q = s.getX q := rfl

/-! ### `putSvf` -/

@[simp] theorem State.putSvf_x (n : Nat) (u : Svf) : (s.putSvf n u).x = s.x := rfl
@[simp] theorem State.putSvf_cmd (n : Nat) (u : Svf) : (s.putSvf n u).cmd = s.cmd := rfl
@[simp] theorem State.putSvf_status (n : Nat) (u : Svf) : (s.putSvf n u).status = s.status := rfl
@[simp] theorem State.putSvf_sr (n : Nat) (u : Svf) : (s.putSvf n u).sr = s.sr := rfl
@[simp] theorem State.putSvf_svf (n : Nat) (u : Svf) : (s.putSvf n u).svf = s.svf.set n u := rfl
@[simp] theorem State.putSvf_lad (n : Nat) (u : Svf) : (s.putSvf n u).lad = s.lad := rfl
@[simp] theorem State.putSvf_rev (n : Nat) (u : Svf) : (s.putSvf n u).rev = s.rev := rfl
@[simp] theorem State.putSvf_dly (n : Nat) (u : Svf) : (s.putSvf n u).dly = s.dly := rfl
@[simp] theorem State.putSvf_cho (n : Nat) (u : Svf) : (s.putSvf n u).cho = s.cho := rfl
@[simp] theorem State.putSvf_wt (n : Nat) (u : Svf) : (s.putSvf n u).wt = s.wt := rfl
@[simp] theorem State.putSvf_fm (n : Nat) (u : Svf) : (s.putSvf n u).fm = s.fm := rfl
@[simp] theorem State.putSvf_ks (n : Nat) (u : Svf) : (s.putSvf n u).ks = s.ks := rfl
@[simp] theorem State.putSvf_env (n : Nat) (u : Svf) : (s.putSvf n u).env = s.env := rfl
@[simp] theorem State.putSvf_lfo (n : Nat) (u : Svf) : (s.putSvf n u).lfo = s.lfo := rfl
@[simp] theorem State.putSvf_build (n : Nat) (u : Svf) : (s.putSvf n u).build = s.build := rfl
@[simp] theorem State.putSvf_draws (n : Nat) (u : Svf) : (s.putSvf n u).draws = s.draws := rfl
@[simp] theorem State.putSvf_host (n : Nat) (u : Svf) : (s.putSvf n u).host = s.host := rfl
@[simp] theorem State.putSvf_reads (n : Nat) (u : Svf) : (s.putSvf n u).reads = s.reads := rfl
@[simp] theorem State.putSvf_getX (n : Nat) (u : Svf) (q : Reg) : (s.putSvf n u).getX q = s.getX q := rfl

/-! ### `putLad` -/

@[simp] theorem State.putLad_x (n : Nat) (u : Lad) : (s.putLad n u).x = s.x := rfl
@[simp] theorem State.putLad_cmd (n : Nat) (u : Lad) : (s.putLad n u).cmd = s.cmd := rfl
@[simp] theorem State.putLad_status (n : Nat) (u : Lad) : (s.putLad n u).status = s.status := rfl
@[simp] theorem State.putLad_sr (n : Nat) (u : Lad) : (s.putLad n u).sr = s.sr := rfl
@[simp] theorem State.putLad_svf (n : Nat) (u : Lad) : (s.putLad n u).svf = s.svf := rfl
@[simp] theorem State.putLad_lad (n : Nat) (u : Lad) : (s.putLad n u).lad = s.lad.set n u := rfl
@[simp] theorem State.putLad_rev (n : Nat) (u : Lad) : (s.putLad n u).rev = s.rev := rfl
@[simp] theorem State.putLad_dly (n : Nat) (u : Lad) : (s.putLad n u).dly = s.dly := rfl
@[simp] theorem State.putLad_cho (n : Nat) (u : Lad) : (s.putLad n u).cho = s.cho := rfl
@[simp] theorem State.putLad_wt (n : Nat) (u : Lad) : (s.putLad n u).wt = s.wt := rfl
@[simp] theorem State.putLad_fm (n : Nat) (u : Lad) : (s.putLad n u).fm = s.fm := rfl
@[simp] theorem State.putLad_ks (n : Nat) (u : Lad) : (s.putLad n u).ks = s.ks := rfl
@[simp] theorem State.putLad_env (n : Nat) (u : Lad) : (s.putLad n u).env = s.env := rfl
@[simp] theorem State.putLad_lfo (n : Nat) (u : Lad) : (s.putLad n u).lfo = s.lfo := rfl
@[simp] theorem State.putLad_build (n : Nat) (u : Lad) : (s.putLad n u).build = s.build := rfl
@[simp] theorem State.putLad_draws (n : Nat) (u : Lad) : (s.putLad n u).draws = s.draws := rfl
@[simp] theorem State.putLad_host (n : Nat) (u : Lad) : (s.putLad n u).host = s.host := rfl
@[simp] theorem State.putLad_reads (n : Nat) (u : Lad) : (s.putLad n u).reads = s.reads := rfl
@[simp] theorem State.putLad_getX (n : Nat) (u : Lad) (q : Reg) : (s.putLad n u).getX q = s.getX q := rfl

/-! ### `putRev` -/

@[simp] theorem State.putRev_x (u : Rev) : (s.putRev u).x = s.x := rfl
@[simp] theorem State.putRev_cmd (u : Rev) : (s.putRev u).cmd = s.cmd := rfl
@[simp] theorem State.putRev_status (u : Rev) : (s.putRev u).status = s.status := rfl
@[simp] theorem State.putRev_sr (u : Rev) : (s.putRev u).sr = s.sr := rfl
@[simp] theorem State.putRev_svf (u : Rev) : (s.putRev u).svf = s.svf := rfl
@[simp] theorem State.putRev_lad (u : Rev) : (s.putRev u).lad = s.lad := rfl
@[simp] theorem State.putRev_rev (u : Rev) : (s.putRev u).rev = u := rfl
@[simp] theorem State.putRev_dly (u : Rev) : (s.putRev u).dly = s.dly := rfl
@[simp] theorem State.putRev_cho (u : Rev) : (s.putRev u).cho = s.cho := rfl
@[simp] theorem State.putRev_wt (u : Rev) : (s.putRev u).wt = s.wt := rfl
@[simp] theorem State.putRev_fm (u : Rev) : (s.putRev u).fm = s.fm := rfl
@[simp] theorem State.putRev_ks (u : Rev) : (s.putRev u).ks = s.ks := rfl
@[simp] theorem State.putRev_env (u : Rev) : (s.putRev u).env = s.env := rfl
@[simp] theorem State.putRev_lfo (u : Rev) : (s.putRev u).lfo = s.lfo := rfl
@[simp] theorem State.putRev_build (u : Rev) : (s.putRev u).build = s.build := rfl
@[simp] theorem State.putRev_draws (u : Rev) : (s.putRev u).draws = s.draws := rfl
@[simp] theorem State.putRev_host (u : Rev) : (s.putRev u).host = s.host := rfl
@[simp] theorem State.putRev_reads (u : Rev) : (s.putRev u).reads = s.reads := rfl
@[simp] theorem State.putRev_getX (u : Rev) (q : Reg) : (s.putRev u).getX q = s.getX q := rfl

/-! ### `putDly` -/

@[simp] theorem State.putDly_x (n : Nat) (u : Dly) : (s.putDly n u).x = s.x := rfl
@[simp] theorem State.putDly_cmd (n : Nat) (u : Dly) : (s.putDly n u).cmd = s.cmd := rfl
@[simp] theorem State.putDly_status (n : Nat) (u : Dly) : (s.putDly n u).status = s.status := rfl
@[simp] theorem State.putDly_sr (n : Nat) (u : Dly) : (s.putDly n u).sr = s.sr := rfl
@[simp] theorem State.putDly_svf (n : Nat) (u : Dly) : (s.putDly n u).svf = s.svf := rfl
@[simp] theorem State.putDly_lad (n : Nat) (u : Dly) : (s.putDly n u).lad = s.lad := rfl
@[simp] theorem State.putDly_rev (n : Nat) (u : Dly) : (s.putDly n u).rev = s.rev := rfl
@[simp] theorem State.putDly_dly (n : Nat) (u : Dly) : (s.putDly n u).dly = s.dly.set n u := rfl
@[simp] theorem State.putDly_cho (n : Nat) (u : Dly) : (s.putDly n u).cho = s.cho := rfl
@[simp] theorem State.putDly_wt (n : Nat) (u : Dly) : (s.putDly n u).wt = s.wt := rfl
@[simp] theorem State.putDly_fm (n : Nat) (u : Dly) : (s.putDly n u).fm = s.fm := rfl
@[simp] theorem State.putDly_ks (n : Nat) (u : Dly) : (s.putDly n u).ks = s.ks := rfl
@[simp] theorem State.putDly_env (n : Nat) (u : Dly) : (s.putDly n u).env = s.env := rfl
@[simp] theorem State.putDly_lfo (n : Nat) (u : Dly) : (s.putDly n u).lfo = s.lfo := rfl
@[simp] theorem State.putDly_build (n : Nat) (u : Dly) : (s.putDly n u).build = s.build := rfl
@[simp] theorem State.putDly_draws (n : Nat) (u : Dly) : (s.putDly n u).draws = s.draws := rfl
@[simp] theorem State.putDly_host (n : Nat) (u : Dly) : (s.putDly n u).host = s.host := rfl
@[simp] theorem State.putDly_reads (n : Nat) (u : Dly) : (s.putDly n u).reads = s.reads := rfl
@[simp] theorem State.putDly_getX (n : Nat) (u : Dly) (q : Reg) : (s.putDly n u).getX q = s.getX q := rfl

/-! ### `putCho` -/

@[simp] theorem State.putCho_x (n : Nat) (u : Cho) : (s.putCho n u).x = s.x := rfl
@[simp] theorem State.putCho_cmd (n : Nat) (u : Cho) : (s.putCho n u).cmd = s.cmd := rfl
@[simp] theorem State.putCho_status (n : Nat) (u : Cho) : (s.putCho n u).status = s.status := rfl
@[simp] theorem State.putCho_sr (n : Nat) (u : Cho) : (s.putCho n u).sr = s.sr := rfl
@[simp] theorem State.putCho_svf (n : Nat) (u : Cho) : (s.putCho n u).svf = s.svf := rfl
@[simp] theorem State.putCho_lad (n : Nat) (u : Cho) : (s.putCho n u).lad = s.lad := rfl
@[simp] theorem State.putCho_rev (n : Nat) (u : Cho) : (s.putCho n u).rev = s.rev := rfl
@[simp] theorem State.putCho_dly (n : Nat) (u : Cho) : (s.putCho n u).dly = s.dly := rfl
@[simp] theorem State.putCho_cho (n : Nat) (u : Cho) : (s.putCho n u).cho = s.cho.set n u := rfl
@[simp] theorem State.putCho_wt (n : Nat) (u : Cho) : (s.putCho n u).wt = s.wt := rfl
@[simp] theorem State.putCho_fm (n : Nat) (u : Cho) : (s.putCho n u).fm = s.fm := rfl
@[simp] theorem State.putCho_ks (n : Nat) (u : Cho) : (s.putCho n u).ks = s.ks := rfl
@[simp] theorem State.putCho_env (n : Nat) (u : Cho) : (s.putCho n u).env = s.env := rfl
@[simp] theorem State.putCho_lfo (n : Nat) (u : Cho) : (s.putCho n u).lfo = s.lfo := rfl
@[simp] theorem State.putCho_build (n : Nat) (u : Cho) : (s.putCho n u).build = s.build := rfl
@[simp] theorem State.putCho_draws (n : Nat) (u : Cho) : (s.putCho n u).draws = s.draws := rfl
@[simp] theorem State.putCho_host (n : Nat) (u : Cho) : (s.putCho n u).host = s.host := rfl
@[simp] theorem State.putCho_reads (n : Nat) (u : Cho) : (s.putCho n u).reads = s.reads := rfl
@[simp] theorem State.putCho_getX (n : Nat) (u : Cho) (q : Reg) : (s.putCho n u).getX q = s.getX q := rfl

/-! ### `putWt` -/

@[simp] theorem State.putWt_x (n : Nat) (u : Wt) : (s.putWt n u).x = s.x := rfl
@[simp] theorem State.putWt_cmd (n : Nat) (u : Wt) : (s.putWt n u).cmd = s.cmd := rfl
@[simp] theorem State.putWt_status (n : Nat) (u : Wt) : (s.putWt n u).status = s.status := rfl
@[simp] theorem State.putWt_sr (n : Nat) (u : Wt) : (s.putWt n u).sr = s.sr := rfl
@[simp] theorem State.putWt_svf (n : Nat) (u : Wt) : (s.putWt n u).svf = s.svf := rfl
@[simp] theorem State.putWt_lad (n : Nat) (u : Wt) : (s.putWt n u).lad = s.lad := rfl
@[simp] theorem State.putWt_rev (n : Nat) (u : Wt) : (s.putWt n u).rev = s.rev := rfl
@[simp] theorem State.putWt_dly (n : Nat) (u : Wt) : (s.putWt n u).dly = s.dly := rfl
@[simp] theorem State.putWt_cho (n : Nat) (u : Wt) : (s.putWt n u).cho = s.cho := rfl
@[simp] theorem State.putWt_wt (n : Nat) (u : Wt) : (s.putWt n u).wt = s.wt.set n u := rfl
@[simp] theorem State.putWt_fm (n : Nat) (u : Wt) : (s.putWt n u).fm = s.fm := rfl
@[simp] theorem State.putWt_ks (n : Nat) (u : Wt) : (s.putWt n u).ks = s.ks := rfl
@[simp] theorem State.putWt_env (n : Nat) (u : Wt) : (s.putWt n u).env = s.env := rfl
@[simp] theorem State.putWt_lfo (n : Nat) (u : Wt) : (s.putWt n u).lfo = s.lfo := rfl
@[simp] theorem State.putWt_build (n : Nat) (u : Wt) : (s.putWt n u).build = s.build := rfl
@[simp] theorem State.putWt_draws (n : Nat) (u : Wt) : (s.putWt n u).draws = s.draws := rfl
@[simp] theorem State.putWt_host (n : Nat) (u : Wt) : (s.putWt n u).host = s.host := rfl
@[simp] theorem State.putWt_reads (n : Nat) (u : Wt) : (s.putWt n u).reads = s.reads := rfl
@[simp] theorem State.putWt_getX (n : Nat) (u : Wt) (q : Reg) : (s.putWt n u).getX q = s.getX q := rfl

/-! ### `putFm` -/

@[simp] theorem State.putFm_x (n : Nat) (u : Fm) : (s.putFm n u).x = s.x := rfl
@[simp] theorem State.putFm_cmd (n : Nat) (u : Fm) : (s.putFm n u).cmd = s.cmd := rfl
@[simp] theorem State.putFm_status (n : Nat) (u : Fm) : (s.putFm n u).status = s.status := rfl
@[simp] theorem State.putFm_sr (n : Nat) (u : Fm) : (s.putFm n u).sr = s.sr := rfl
@[simp] theorem State.putFm_svf (n : Nat) (u : Fm) : (s.putFm n u).svf = s.svf := rfl
@[simp] theorem State.putFm_lad (n : Nat) (u : Fm) : (s.putFm n u).lad = s.lad := rfl
@[simp] theorem State.putFm_rev (n : Nat) (u : Fm) : (s.putFm n u).rev = s.rev := rfl
@[simp] theorem State.putFm_dly (n : Nat) (u : Fm) : (s.putFm n u).dly = s.dly := rfl
@[simp] theorem State.putFm_cho (n : Nat) (u : Fm) : (s.putFm n u).cho = s.cho := rfl
@[simp] theorem State.putFm_wt (n : Nat) (u : Fm) : (s.putFm n u).wt = s.wt := rfl
@[simp] theorem State.putFm_fm (n : Nat) (u : Fm) : (s.putFm n u).fm = s.fm.set n u := rfl
@[simp] theorem State.putFm_ks (n : Nat) (u : Fm) : (s.putFm n u).ks = s.ks := rfl
@[simp] theorem State.putFm_env (n : Nat) (u : Fm) : (s.putFm n u).env = s.env := rfl
@[simp] theorem State.putFm_lfo (n : Nat) (u : Fm) : (s.putFm n u).lfo = s.lfo := rfl
@[simp] theorem State.putFm_build (n : Nat) (u : Fm) : (s.putFm n u).build = s.build := rfl
@[simp] theorem State.putFm_draws (n : Nat) (u : Fm) : (s.putFm n u).draws = s.draws := rfl
@[simp] theorem State.putFm_host (n : Nat) (u : Fm) : (s.putFm n u).host = s.host := rfl
@[simp] theorem State.putFm_reads (n : Nat) (u : Fm) : (s.putFm n u).reads = s.reads := rfl
@[simp] theorem State.putFm_getX (n : Nat) (u : Fm) (q : Reg) : (s.putFm n u).getX q = s.getX q := rfl

/-! ### `putKs` -/

@[simp] theorem State.putKs_x (n : Nat) (u : Ks) : (s.putKs n u).x = s.x := rfl
@[simp] theorem State.putKs_cmd (n : Nat) (u : Ks) : (s.putKs n u).cmd = s.cmd := rfl
@[simp] theorem State.putKs_status (n : Nat) (u : Ks) : (s.putKs n u).status = s.status := rfl
@[simp] theorem State.putKs_sr (n : Nat) (u : Ks) : (s.putKs n u).sr = s.sr := rfl
@[simp] theorem State.putKs_svf (n : Nat) (u : Ks) : (s.putKs n u).svf = s.svf := rfl
@[simp] theorem State.putKs_lad (n : Nat) (u : Ks) : (s.putKs n u).lad = s.lad := rfl
@[simp] theorem State.putKs_rev (n : Nat) (u : Ks) : (s.putKs n u).rev = s.rev := rfl
@[simp] theorem State.putKs_dly (n : Nat) (u : Ks) : (s.putKs n u).dly = s.dly := rfl
@[simp] theorem State.putKs_cho (n : Nat) (u : Ks) : (s.putKs n u).cho = s.cho := rfl
@[simp] theorem State.putKs_wt (n : Nat) (u : Ks) : (s.putKs n u).wt = s.wt := rfl
@[simp] theorem State.putKs_fm (n : Nat) (u : Ks) : (s.putKs n u).fm = s.fm := rfl
@[simp] theorem State.putKs_ks (n : Nat) (u : Ks) : (s.putKs n u).ks = s.ks.set n u := rfl
@[simp] theorem State.putKs_env (n : Nat) (u : Ks) : (s.putKs n u).env = s.env := rfl
@[simp] theorem State.putKs_lfo (n : Nat) (u : Ks) : (s.putKs n u).lfo = s.lfo := rfl
@[simp] theorem State.putKs_build (n : Nat) (u : Ks) : (s.putKs n u).build = s.build := rfl
@[simp] theorem State.putKs_draws (n : Nat) (u : Ks) : (s.putKs n u).draws = s.draws := rfl
@[simp] theorem State.putKs_host (n : Nat) (u : Ks) : (s.putKs n u).host = s.host := rfl
@[simp] theorem State.putKs_reads (n : Nat) (u : Ks) : (s.putKs n u).reads = s.reads := rfl
@[simp] theorem State.putKs_getX (n : Nat) (u : Ks) (q : Reg) : (s.putKs n u).getX q = s.getX q := rfl

/-! ### `putEnv` -/

@[simp] theorem State.putEnv_x (n : Nat) (u : Env) : (s.putEnv n u).x = s.x := rfl
@[simp] theorem State.putEnv_cmd (n : Nat) (u : Env) : (s.putEnv n u).cmd = s.cmd := rfl
@[simp] theorem State.putEnv_status (n : Nat) (u : Env) : (s.putEnv n u).status = s.status := rfl
@[simp] theorem State.putEnv_sr (n : Nat) (u : Env) : (s.putEnv n u).sr = s.sr := rfl
@[simp] theorem State.putEnv_svf (n : Nat) (u : Env) : (s.putEnv n u).svf = s.svf := rfl
@[simp] theorem State.putEnv_lad (n : Nat) (u : Env) : (s.putEnv n u).lad = s.lad := rfl
@[simp] theorem State.putEnv_rev (n : Nat) (u : Env) : (s.putEnv n u).rev = s.rev := rfl
@[simp] theorem State.putEnv_dly (n : Nat) (u : Env) : (s.putEnv n u).dly = s.dly := rfl
@[simp] theorem State.putEnv_cho (n : Nat) (u : Env) : (s.putEnv n u).cho = s.cho := rfl
@[simp] theorem State.putEnv_wt (n : Nat) (u : Env) : (s.putEnv n u).wt = s.wt := rfl
@[simp] theorem State.putEnv_fm (n : Nat) (u : Env) : (s.putEnv n u).fm = s.fm := rfl
@[simp] theorem State.putEnv_ks (n : Nat) (u : Env) : (s.putEnv n u).ks = s.ks := rfl
@[simp] theorem State.putEnv_env (n : Nat) (u : Env) : (s.putEnv n u).env = s.env.set n u := rfl
@[simp] theorem State.putEnv_lfo (n : Nat) (u : Env) : (s.putEnv n u).lfo = s.lfo := rfl
@[simp] theorem State.putEnv_build (n : Nat) (u : Env) : (s.putEnv n u).build = s.build := rfl
@[simp] theorem State.putEnv_draws (n : Nat) (u : Env) : (s.putEnv n u).draws = s.draws := rfl
@[simp] theorem State.putEnv_host (n : Nat) (u : Env) : (s.putEnv n u).host = s.host := rfl
@[simp] theorem State.putEnv_reads (n : Nat) (u : Env) : (s.putEnv n u).reads = s.reads := rfl
@[simp] theorem State.putEnv_getX (n : Nat) (u : Env) (q : Reg) : (s.putEnv n u).getX q = s.getX q := rfl

/-! ### `putLfo` -/

@[simp] theorem State.putLfo_x (n : Nat) (u : Lfo) : (s.putLfo n u).x = s.x := rfl
@[simp] theorem State.putLfo_cmd (n : Nat) (u : Lfo) : (s.putLfo n u).cmd = s.cmd := rfl
@[simp] theorem State.putLfo_status (n : Nat) (u : Lfo) : (s.putLfo n u).status = s.status := rfl
@[simp] theorem State.putLfo_sr (n : Nat) (u : Lfo) : (s.putLfo n u).sr = s.sr := rfl
@[simp] theorem State.putLfo_svf (n : Nat) (u : Lfo) : (s.putLfo n u).svf = s.svf := rfl
@[simp] theorem State.putLfo_lad (n : Nat) (u : Lfo) : (s.putLfo n u).lad = s.lad := rfl
@[simp] theorem State.putLfo_rev (n : Nat) (u : Lfo) : (s.putLfo n u).rev = s.rev := rfl
@[simp] theorem State.putLfo_dly (n : Nat) (u : Lfo) : (s.putLfo n u).dly = s.dly := rfl
@[simp] theorem State.putLfo_cho (n : Nat) (u : Lfo) : (s.putLfo n u).cho = s.cho := rfl
@[simp] theorem State.putLfo_wt (n : Nat) (u : Lfo) : (s.putLfo n u).wt = s.wt := rfl
@[simp] theorem State.putLfo_fm (n : Nat) (u : Lfo) : (s.putLfo n u).fm = s.fm := rfl
@[simp] theorem State.putLfo_ks (n : Nat) (u : Lfo) : (s.putLfo n u).ks = s.ks := rfl
@[simp] theorem State.putLfo_env (n : Nat) (u : Lfo) : (s.putLfo n u).env = s.env := rfl
@[simp] theorem State.putLfo_lfo (n : Nat) (u : Lfo) : (s.putLfo n u).lfo = s.lfo.set n u := rfl
@[simp] theorem State.putLfo_build (n : Nat) (u : Lfo) : (s.putLfo n u).build = s.build := rfl
@[simp] theorem State.putLfo_draws (n : Nat) (u : Lfo) : (s.putLfo n u).draws = s.draws := rfl
@[simp] theorem State.putLfo_host (n : Nat) (u : Lfo) : (s.putLfo n u).host = s.host := rfl
@[simp] theorem State.putLfo_reads (n : Nat) (u : Lfo) : (s.putLfo n u).reads = s.reads := rfl
@[simp] theorem State.putLfo_getX (n : Nat) (u : Lfo) (q : Reg) : (s.putLfo n u).getX q = s.getX q := rfl

/-! ### `drawn` -/

@[simp] theorem State.drawn_x : (s.drawn).x = s.x := rfl
@[simp] theorem State.drawn_cmd : (s.drawn).cmd = s.cmd := rfl
@[simp] theorem State.drawn_status : (s.drawn).status = s.status := rfl
@[simp] theorem State.drawn_sr : (s.drawn).sr = s.sr := rfl
@[simp] theorem State.drawn_svf : (s.drawn).svf = s.svf := rfl
@[simp] theorem State.drawn_lad : (s.drawn).lad = s.lad := rfl
@[simp] theorem State.drawn_rev : (s.drawn).rev = s.rev := rfl
@[simp] theorem State.drawn_dly : (s.drawn).dly = s.dly := rfl
@[simp] theorem State.drawn_cho : (s.drawn).cho = s.cho := rfl
@[simp] theorem State.drawn_wt : (s.drawn).wt = s.wt := rfl
@[simp] theorem State.drawn_fm : (s.drawn).fm = s.fm := rfl
@[simp] theorem State.drawn_ks : (s.drawn).ks = s.ks := rfl
@[simp] theorem State.drawn_env : (s.drawn).env = s.env := rfl
@[simp] theorem State.drawn_lfo : (s.drawn).lfo = s.lfo := rfl
@[simp] theorem State.drawn_build : (s.drawn).build = s.build := rfl
@[simp] theorem State.drawn_draws : (s.drawn).draws = s.draws + 1 := rfl
@[simp] theorem State.drawn_host : (s.drawn).host = s.host := rfl
@[simp] theorem State.drawn_reads : (s.drawn).reads = s.reads := rfl
@[simp] theorem State.drawn_getX (q : Reg) : (s.drawn).getX q = s.getX q := rfl

/-! ### `record` -/

@[simp] theorem State.record_x (e : Err) (op : BitVec 6) : (s.record e op).x = s.x := rfl
@[simp] theorem State.record_cmd (e : Err) (op : BitVec 6) : (s.record e op).cmd = s.cmd := rfl
@[simp] theorem State.record_status (e : Err) (op : BitVec 6) : (s.record e op).status = recordError e op s.status := rfl
@[simp] theorem State.record_sr (e : Err) (op : BitVec 6) : (s.record e op).sr = s.sr := rfl
@[simp] theorem State.record_svf (e : Err) (op : BitVec 6) : (s.record e op).svf = s.svf := rfl
@[simp] theorem State.record_lad (e : Err) (op : BitVec 6) : (s.record e op).lad = s.lad := rfl
@[simp] theorem State.record_rev (e : Err) (op : BitVec 6) : (s.record e op).rev = s.rev := rfl
@[simp] theorem State.record_dly (e : Err) (op : BitVec 6) : (s.record e op).dly = s.dly := rfl
@[simp] theorem State.record_cho (e : Err) (op : BitVec 6) : (s.record e op).cho = s.cho := rfl
@[simp] theorem State.record_wt (e : Err) (op : BitVec 6) : (s.record e op).wt = s.wt := rfl
@[simp] theorem State.record_fm (e : Err) (op : BitVec 6) : (s.record e op).fm = s.fm := rfl
@[simp] theorem State.record_ks (e : Err) (op : BitVec 6) : (s.record e op).ks = s.ks := rfl
@[simp] theorem State.record_env (e : Err) (op : BitVec 6) : (s.record e op).env = s.env := rfl
@[simp] theorem State.record_lfo (e : Err) (op : BitVec 6) : (s.record e op).lfo = s.lfo := rfl
@[simp] theorem State.record_build (e : Err) (op : BitVec 6) : (s.record e op).build = s.build := rfl
@[simp] theorem State.record_draws (e : Err) (op : BitVec 6) : (s.record e op).draws = s.draws := rfl
@[simp] theorem State.record_host (e : Err) (op : BitVec 6) : (s.record e op).host = s.host := rfl
@[simp] theorem State.record_reads (e : Err) (op : BitVec 6) : (s.record e op).reads = s.reads := rfl
@[simp] theorem State.record_getX (e : Err) (op : BitVec 6) (q : Reg) : (s.record e op).getX q = s.getX q := rfl

/-! ### Data registers -/

@[simp] theorem State.putX_getX_same (r : Reg) (v : Word) : (s.putX r v).getX r = v := by
  simp [State.putX, State.getX]

@[simp] theorem State.putX_getX_other (r q : Reg) (v : Word) (h : q ≠ r) : (s.putX r v).getX q = s.getX q := by
  have : (r : Nat) ≠ q := fun e => h (Fin.ext e.symm)
  simp [State.putX, State.getX, this]

end Sys2Proof.Machine
end

