-- ==== Sys2Proof/Laws/Ops.lean ====
section
/-! SUPPORT. What each shared operation can do, said once: the operand checks, raising, recording and the wrapper around a
command. -/

namespace Sys2Proof.Machine

@[simp] theorem raise_eq (e : Err) (op : BitVec 6) (s : State) : raise e op s = .next (s.record e op) := rfl

theorem onInst_some {α : Type} {op : BitVec 6} {us : List α} {n : Nat} {s : State} {body : α → Result} {u : α}
    (h : us[n]? = some u) : onInst op us n s body = body u := by simp [onInst, h]

theorem onInst_none {α : Type} {op : BitVec 6} {us : List α} {n : Nat} {s : State} {body : α → Result}
    (h : us.length ≤ n) : onInst op us n s body = .next (s.record .badInst op) := by
  simp [onInst, List.getElem?_eq_none h]

/-- `onInst` runs its body on an existing instance, or records E_BAD_INST. -/
theorem onInst_cases {α : Type} (op : BitVec 6) (us : List α) (n : Nat) (s : State) (body : α → Result) :
    (∃ u, us[n]? = some u ∧ onInst op us n s body = body u) ∨
    (us.length ≤ n ∧ onInst op us n s body = .next (s.record .badInst op)) := by
  rcases h : us[n]? with _ | u
  · exact .inr ⟨List.getElem?_eq_none_iff.mp h, by simp [onInst, h]⟩
  · exact .inl ⟨u, rfl, by simp [onInst, h]⟩

theorem onSample_finite {op : BitVec 6} {r : Reg} {s : State} {body : Word → Result}
    (h : isFinite (s.getX r) = true) : onSample op r s body = body (s.getX r) := by simp [onSample, h]

theorem onSample_nonfinite {op : BitVec 6} {r : Reg} {s : State} {body : Word → Result}
    (h : isFinite (s.getX r) = false) : onSample op r s body = .next (s.record .nonfinite op) := by simp [onSample, h]

/-- `onSample` runs its body on a finite operand, or records E_NONFINITE. -/
theorem onSample_cases (op : BitVec 6) (r : Reg) (s : State) (body : Word → Result) :
    (isFinite (s.getX r) = true ∧ onSample op r s body = body (s.getX r)) ∨
    (isFinite (s.getX r) = false ∧ onSample op r s body = .next (s.record .nonfinite op)) := by
  rcases h : isFinite (s.getX r) with _ | _
  · exact .inr ⟨rfl, by simp [onSample, h]⟩
  · exact .inl ⟨rfl, by simp [onSample, h]⟩

/-- The first error is recorded (60_exceptions.md R352). -/
theorem recordError_first {st : Status} (e : Err) (op : BitVec 6) (h : st.err = false) :
    recordError e op st = { st with err := true, cause := e.code, errop := op } := by simp [recordError, h]

/-- A later error is not (60_exceptions.md R352). -/
theorem recordError_later {st : Status} (e : Err) (op : BitVec 6) (h : st.err = true) :
    recordError e op st = st := by simp [recordError, h]

@[simp] theorem recordError_busy (e : Err) (op : BitVec 6) (st : Status) : (recordError e op st).busy = st.busy := by
  unfold recordError; split <;> rfl

@[simp] theorem mapNext_next (f : State → State) (s : State) : mapNext f (.next s) = .next (f s) := rfl

/-- The wrapper's next states are the images of the inner ones. -/
theorem mapNext_cases {f : State → State} {r : Result} {t : State} (h : mapNext f r = .next t) :
    ∃ u, r = .next u ∧ t = f u := by
  cases r with
  | next u => exact ⟨u, rfl, by simpa [mapNext] using h.symm⟩
  | fault r => nomatch r
  | refused r => simp [mapNext] at h

/-- The word on the lanes is the word (20_memory.md R85). -/
@[simp] theorem wordOfLanes_lanesOfWord (w : Word) : wordOfLanes (lanesOfWord w) = some w := by
  simp only [wordOfLanes, lanesOfWord, Option.some.injEq]
  apply BitVec.eq_of_getLsbD_eq
  intro i hi
  simp only [BitVec.getLsbD_append, BitVec.getLsbD_extractLsb']
  interval_cases i <;> simp

end Sys2Proof.Machine
end

