-- ==== Sys2Proof/Laws/Exec.lean ====
section
/-! SUPPORT. One equation a command, its checks passed: the next state as a term over the unit's step function. Later
proofs rewrite with these and never unfold a meaning (the kernel must not compare unfolded binary32 terms, whose
numerals are as large as 2^149). -/

namespace Sys2Proof.Machine

theorem execPrep_next {s1 : Reg} {s : State} (h : positiveSet (s.getX s1) = true) :
    execPrep s1 s = .next (((s.putSr (s.getX s1)).putSvfs (deriveAll s (s.getX s1))).drawn) := by
  simp only [execPrep, h, if_true]

theorem execPset_next {n u p : Nat} {s1 : Reg} {s : State} (hu : u < 11) (hn : n < s.count u)
    (ha : access u p = some .rw) (hl : s.legal u n p (s.getX s1) = true) :
    execPset n s1 u p s = .next (s.setParam u n p (s.getX s1)) := by
  simp only [execPset, ha, hl, if_true]
  rw [if_neg (by omega), if_neg (by omega)]

theorem execPget_next {n u p : Nat} {d : Reg} {s : State} {v : Word} (hu : u < 11) (hn : n < s.count u)
    (hv : s.getParam u n p = some v) : execPget n d u p s = .next (s.putX d v) := by
  simp only [execPget, hv]
  rw [if_neg (by omega), if_neg (by omega)]

theorem svfCommand_next {out : Svf → Word} {n : Nat} {d s1 : Reg} {s : State} {u : Svf} (hu : s.svf[n]? = some u)
    (hf : isFinite (s.getX s1) = true) :
    svfCommand out n d s1 s =
      .next (((s.putSvf n (svfStep s.nan (s.getX s1) u)).putX d (out (svfStep s.nan (s.getX s1) u))).drawn) := by
  rw [svfCommand, onInst_some hu, onSample_finite hf]

theorem execLad_next {n : Nat} {d s1 : Reg} {s : State} {u : Lad} (hu : s.lad[n]? = some u)
    (hf : isFinite (s.getX s1) = true) :
    execLad n d s1 s =
      .next (((s.putLad n (ladStep s.build.trig s.nan (s.getX s1) u)).putX d
        (ladStep s.build.trig s.nan (s.getX s1) u).stage[3]).drawn) := by
  rw [execLad, onInst_some hu, onSample_finite hf]

theorem execRev_next {d s1 : Reg} {s : State} (hf : isFinite (s.getX s1) = true) :
    execRev 0 d s1 s =
      .next (((s.putRev (revStep s.build s.nan (s.getX s1) s.rev).2).putX d
        (revStep s.build s.nan (s.getX s1) s.rev).1).drawn) := by
  rw [execRev, onInst_some (u := s.rev) rfl, onSample_finite hf]

theorem execDly_next {n : Nat} {d s1 : Reg} {s : State} {u : Dly} (hu : s.dly[n]? = some u)
    (hf : isFinite (s.getX s1) = true) :
    execDly n d s1 s =
      .next (((s.putDly n (dlyStep s.nan (s.getX s1) u).2).putX d (dlyStep s.nan (s.getX s1) u).1).drawn) := by
  rw [execDly, onInst_some hu, onSample_finite hf]

theorem execDlysz_next {n : Nat} {s1 : Reg} {s : State} {u : Dly} (hu : s.dly[n]? = some u)
    (h1 : 1 ≤ s.getU s1) (h2 : s.getU s1 ≤ s.build.dlyMax) :
    execDlysz n s1 s = .next (s.putDly n (dlyResize (s.getU s1) u)) := by
  rw [execDlysz, onInst_some hu]
  exact if_neg (by omega)

theorem execCho_next {n : Nat} {d s1 : Reg} {s : State} {u : Cho} (hu : s.cho[n]? = some u)
    (hf : isFinite (s.getX s1) = true) :
    execCho n d s1 s =
      .next (((s.putCho n (choStep s.build.trig s.nan s.sr (s.getX s1) u).2).putX d
        (choStep s.build.trig s.nan s.sr (s.getX s1) u).1).drawn) := by
  rw [execCho, onInst_some hu, onSample_finite hf]

theorem execWt_next {n : Nat} {d s1 : Reg} {s : State} {u : Wt} (hu : s.wt[n]? = some u)
    (hf : isFinite (s.getX s1) = true) :
    execWt n d s1 s = .next ((s.putX d (wtSample s.build s.nan u.morph (s.getX s1))).drawn) := by
  rw [execWt, onInst_some hu, onSample_finite hf]

theorem execFm_next {n : Nat} {d s1 s2 : Reg} {s : State} {u : Fm} (hu : s.fm[n]? = some u)
    (h1 : isFinite (s.getX s1) = true) (h2 : isFinite (s.getX s2) = true) :
    execFm n d s1 s2 s =
      .next (((s.putFm n (fmStep s.build.trig s.nan s.sr (s.getX s1) (s.getX s2) u).2).putX d
        (fmStep s.build.trig s.nan s.sr (s.getX s1) (s.getX s2) u).1).drawn) := by
  rw [execFm, onInst_some hu, onSample_finite h1, onSample_finite h2]

theorem execKs_next {n : Nat} {d s1 : Reg} {s : State} {u : Ks} (hu : s.ks[n]? = some u)
    (hf : isFinite (s.getX s1) = true) :
    execKs n d s1 s =
      .next (((s.putKs n (ksStep s.nan (s.getX s1) u).2).putX d (ksStep s.nan (s.getX s1) u).1).drawn) := by
  rw [execKs, onInst_some hu, onSample_finite hf]

theorem execKsf_next {n m : Nat} {s1 : Reg} {s : State} {u : Ks} {v : Word} (hu : s.ks[n]? = some u)
    (hp : positiveSet (s.getX s1) = true) (hv : fDiv (s.nan 0) s.sr (s.getX s1) = v) (hf : isFinite v = true)
    (hm : roundHalfAway v = m) (h1 : 1 ≤ m) (h2 : m ≤ s.build.ksMax) :
    execKsf n s1 s = .next (s.putKs n (ksRetune (s.getX s1) m u)) := by
  rw [execKsf, onInst_some hu]
  simp only [hp, hv, hf, hm, Bool.not_true, Bool.false_eq_true, if_false]
  exact if_neg (by omega)

theorem execEnv_next {n : Nat} {d : Reg} {g : Bool} {s : State} {u : Env} (hu : s.env[n]? = some u) :
    execEnv n d g s =
      .next (((s.putEnv n (envStep s.nan s.sr g u)).putX d (envStep s.nan s.sr g u).level).drawn) := by
  rw [execEnv, onInst_some hu]

theorem execLfo_next {n : Nat} {d : Reg} {s : State} {u : Lfo} (hu : s.lfo[n]? = some u) :
    execLfo n d s =
      .next (((s.putLfo n (lfoStep s.build.trig s.nan s.sr u).2).putX d
        (lfoStep s.build.trig s.nan s.sr u).1).drawn) := by
  rw [execLfo, onInst_some hu]

theorem execFadd_next {d s1 s2 : Reg} {s : State} (h1 : isFinite (s.getX s1) = true)
    (h2 : isFinite (s.getX s2) = true) :
    execFadd d s1 s2 s = .next ((s.putX d (fAdd (s.nan 0) (s.getX s1) (s.getX s2))).drawn) := by
  rw [execFadd, onSample_finite h1, onSample_finite h2]

theorem execFmul_next {d s1 s2 : Reg} {s : State} (h1 : isFinite (s.getX s1) = true)
    (h2 : isFinite (s.getX s2) = true) :
    execFmul d s1 s2 s = .next ((s.putX d (fMul (s.nan 0) (s.getX s1) (s.getX s2))).drawn) := by
  rw [execFmul, onSample_finite h1, onSample_finite h2]

theorem execSclip_next {d s1 : Reg} {s : State} (h : isFinite (s.getX s1) = true) :
    execSclip d s1 s = .next ((s.putX d (tanhF s.build.trig (s.nan 0) (s.getX s1))).drawn) := by
  rw [execSclip, onSample_finite h]

end Sys2Proof.Machine
end

