-- ==== Sys2Proof/Laws/Float.lean ====
section
/-! SUPPORT. The layout of a word and its exact magnitude: the magnitude bits order the magnitudes, a word made of sign and
magnitude has them back, and rounding a quotient below 1.0 gives at most 1.0. -/

namespace Sys2Proof.Machine

/-! ### The words of R19 -/

theorem piF_eq : piF = 0x40490FDB := rfl
theorem twoPiF_eq : twoPiF = 0x40C90FDB := rfl
theorem k049_eq : k049 = 0x3EFAE148 := rfl
theorem halfF_eq : halfF = 0x3F000000 := rfl
theorem eighthF_eq : eighthF = 0x3E000000 := rfl
theorem oneF_eq : oneF = 0x3F800000 := rfl
theorem twoF_eq : twoF = 0x40000000 := rfl
theorem f4094_eq : f4094 = 0x457FE000 := rfl
theorem zero_eq : zero = 0x00000000 := rfl

/-! ### Fields -/

theorem fracField_lt (v : Word) : fracField v < 2 ^ 23 := (v.extractLsb' 0 23).isLt

theorem expField_lt (v : Word) : expField v < 256 := (v.extractLsb' 23 8).isLt

theorem magBits_eq (v : Word) : magBits v = 2 ^ 23 * expField v + fracField v := by
  simp only [magBits, expField, fracField, BitVec.extractLsb'_toNat, Nat.shiftRight_eq_div_pow]
  omega

/-! ### Order -/

/-- Exponent and fraction together order the magnitudes they stand for. -/
theorem magnitude_lt {e f e' f' : Nat} (hf : f < 2 ^ 23) (h : 2 ^ 23 * e + f < 2 ^ 23 * e' + f') (hf' : f' < 2 ^ 23) :
    (if e = 0 then f else (2 ^ 23 + f) * 2 ^ (e - 1)) < (if e' = 0 then f' else (2 ^ 23 + f') * 2 ^ (e' - 1)) := by
  by_cases he : e = e'
  · subst he
    split
    · omega
    · exact Nat.mul_lt_mul_of_pos_right (by omega) (by positivity)
  · rw [if_neg (show e' ≠ 0 by omega)]
    split
    · nlinarith [Nat.one_le_two_pow (n := e' - 1)]
    · have : 2 ^ (e - 1) * 2 ≤ 2 ^ (e' - 1) := by
        rw [← pow_succ]; exact Nat.pow_le_pow_right (by norm_num) (by omega)
      have hp : 0 < 2 ^ (e - 1) := by positivity
      nlinarith

theorem magBits_lt_iff {a b : Word} : magBits a < magBits b ↔ magUnits a < magUnits b := by
  have up : ∀ {a b : Word}, magBits a < magBits b → magUnits a < magUnits b := fun {a b} h => by
    rw [magBits_eq, magBits_eq] at h
    exact magnitude_lt (fracField_lt a) h (fracField_lt b)
  refine ⟨up, fun h => ?_⟩
  by_contra hc
  rcases Nat.lt_or_eq_of_le (Nat.le_of_not_lt hc) with h2 | h2
  · exact absurd (up h2) (by omega)
  · rw [magBits_eq, magBits_eq] at h2
    have := fracField_lt a
    have := fracField_lt b
    have he : expField a = expField b := by omega
    have hf : fracField a = fracField b := by omega
    simp [magUnits, he, hf] at h

theorem magBits_eq_zero_iff {a : Word} : magBits a = 0 ↔ magUnits a = 0 := by
  have : magUnits 0 = 0 := by decide
  have h0 : magBits 0 = 0 := by decide
  have := @magBits_lt_iff 0 a
  omega

/-- The comparison key orders the exact values. -/
theorem orderKey_lt_iff {a b : Word} : orderKey a < orderKey b ↔ units a < units b := by
  have h1 := @magBits_lt_iff a b
  have h2 := @magBits_lt_iff b a
  have h3 := @magBits_eq_zero_iff a
  have h4 := @magBits_eq_zero_iff b
  unfold orderKey units
  split <;> split <;> omega

theorem isNaN_of_isFinite {a : Word} (h : isFinite a = true) : isNaN a = false := by
  simp only [isFinite, bne_iff_ne] at h
  simp [isNaN, h]

theorem isInf_of_isFinite {a : Word} (h : isFinite a = true) : isInf a = false := by
  simp only [isFinite, bne_iff_ne] at h
  simp [isInf, h]

/-! ### Words from sign and magnitude -/

theorem ofMag_toNat {neg : Bool} {m : Nat} (h : m < 2 ^ 31) : (ofMag neg m).toNat = (if neg then 2 ^ 31 else 0) + m := by
  simp only [ofMag, BitVec.toNat_ofNat]
  apply Nat.mod_eq_of_lt
  split <;> omega

theorem magBits_ofMag {neg : Bool} {m : Nat} (h : m < 2 ^ 31) : magBits (ofMag neg m) = m := by
  simp only [magBits, BitVec.extractLsb'_toNat, ofMag_toNat h, Nat.shiftRight_eq_div_pow]
  split <;> omega

theorem signBit_ofMag {neg : Bool} {m : Nat} (h : m < 2 ^ 31) : signBit (ofMag neg m) = neg := by
  simp only [signBit, BitVec.getLsbD, ofMag_toNat h, Nat.testBit_eq_decide_div_mod_eq]
  cases neg <;> simp <;> omega

/-! ### Rounding -/

/-- A quotient below `den * 2^149` units, that is below 1.0, rounds to at most 1.0. -/
theorem roundUnits_le_one {num den : Nat} (hd : 0 < den) (h : num < den * 2 ^ 149) : roundUnits num den ≤ 0x3F800000 := by
  have hq : num / den < 2 ^ 149 := Nat.div_lt_of_lt_mul h
  simp only [roundUnits]
  refine le_trans (Nat.min_le_left _ _) ?_
  generalize hsh : (if num / den < 2 ^ 24 then 0 else Nat.log2 (num / den) - 23) = sh
  have hrn : ∀ D, num < D * 2 ^ 24 → roundNearest num D ≤ 2 ^ 24 := by
    intro D hD
    have : num / D < 2 ^ 24 := Nat.div_lt_of_lt_mul hD
    unfold roundNearest
    split <;> omega
  have hs : sh ≤ 125 ∧ num < den * 2 ^ sh * 2 ^ 24 := by
    split at hsh
    · next hlt =>
      subst hsh
      refine ⟨by omega, ?_⟩
      rw [Nat.pow_zero, Nat.mul_one]
      exact ((Nat.div_lt_iff_lt_mul hd).mp hlt).trans_eq (Nat.mul_comm _ _)
    · next hge =>
      have hne : num / den ≠ 0 := fun h0 => by rw [h0] at hge; exact hge (by positivity)
      have h1 : Nat.log2 (num / den) < 149 := (Nat.log2_lt hne).mpr hq
      have h2 : num / den < 2 ^ (Nat.log2 (num / den) + 1) := Nat.lt_log2_self
      have h3 : 24 ≤ Nat.log2 (num / den) := by
        rw [Nat.le_log2 hne]
        exact Nat.le_of_not_lt hge
      refine ⟨by omega, ?_⟩
      rw [show Nat.log2 (num / den) + 1 = sh + 24 by omega] at h2
      rw [Nat.mul_assoc, ← pow_add]
      exact ((Nat.div_lt_iff_lt_mul hd).mp h2).trans_eq (Nat.mul_comm _ _)
  have := hrn _ hs.2
  have := hs.1
  omega

/-- The reference hyperbolic tangent is at most 1.0 in magnitude. -/
theorem tanhMag_le_one (x : Nat) : tanhMag x ≤ 0x3F800000 := by
  unfold tanhMag
  split
  · exact le_refl _
  · have hp : 0 < fixOne := by unfold fixOne; positivity
    generalize fixExp (2 * x) = e
    generalize fixOne = o at hp
    exact roundUnits_le_one (by omega) (Nat.mul_lt_mul_of_pos_right (by omega) (by unfold unitsPerOne; positivity))

end Sys2Proof.Machine
end

