-- ==== Sys2Proof/Laws/Frame.lean ====
section
/-! SUPPORT. What a replaced register, a replaced unit and an untouched buffer mean for the frames of Safety.lean, and that
the reset state's memories are canonical. -/

namespace Sys2Proof.Machine

/-! ### One element of a list replaced -/

theorem getElem?_set_same {α : Type} {l : List α} {n : Nat} {u v : α} (h : l[n]? = some u) : (l.set n v)[n]? = some v := by
  have := (List.getElem?_eq_some_iff.mp h).1
  simp [this]

theorem getElem?_modify_same {α : Type} {l : List α} {n : Nat} {u : α} (f : α → α) (h : l[n]? = some u) :
    (l.modify n f)[n]? = some (f u) := by simp [h]

theorem sameListBut_set {α : Type} (l : List α) (n : Nat) (u : α) : sameListBut n l (l.set n u) :=
  ⟨by simp, fun m hm => List.getElem?_set_ne (Ne.symm hm)⟩

theorem sameListBut_modify {α : Type} (l : List α) (n : Nat) (f : α → α) : sameListBut n l (l.modify n f) :=
  ⟨by simp, fun m hm => by simp [Ne.symm hm]⟩

/-! ### Registers -/

/-- A state whose registers are `s`'s with `d` written keeps every other register. -/
theorem sameXBut_of_set {s t : State} {d : Reg} {v : Word} (h : t.x = s.x.set d v) : sameXBut [d] s t := by
  intro r hr
  simp only [List.mem_singleton] at hr
  simp only [State.getX, h]
  exact Vector.getElem_set_ne _ _ (fun e => hr (Fin.ext e.symm))

/-- A state with the same registers keeps every register. -/
theorem sameXBut_of_eq {s t : State} {regs : List Reg} (h : t.x = s.x) : sameXBut regs s t :=
  fun r _ => by simp [State.getX, h]

/-! ### Buffer words -/

/-- The buffer words are those of DLY, CHO, KS and REV. -/
theorem word_congr {s t : State} (hd : t.dly = s.dly) (hc : t.cho = s.cho) (hk : t.ks = s.ks) (hr : t.rev = s.rev)
    (b : BufId) (i : Nat) : t.word b i = s.word b i := by
  cases b <;> simp [State.word, hd, hc, hk, hr]

/-- Only buffer `dly n` can change when only DLY instance `n` is replaced. -/
theorem sameWordsBut_putDly {s : State} {n : Nat} {u v : Dly} {stored : Nat → Prop} (hu : s.dly[n]? = some u)
    (hb : ∀ i, ¬ stored i → bufRead v.buf i = bufRead u.buf i) :
    sameWordsBut (fun b i => b = .dly n ∧ stored i) s (s.putDly n v) := by
  intro b i hn
  cases b <;> try rfl
  next m =>
    by_cases hm : m = n
    · subst hm
      simp only [State.word, State.putDly, getElem?_set_same hu, hu, Option.map_some, Option.getD_some]
      exact hb i fun h => hn ⟨rfl, h⟩
    · simp only [State.word, State.putDly, List.getElem?_set_ne (Ne.symm hm)]

/-- Only buffer `cho n` can change when only CHO instance `n` is replaced. -/
theorem sameWordsBut_putCho {s : State} {n : Nat} {u v : Cho} {stored : Nat → Prop} (hu : s.cho[n]? = some u)
    (hb : ∀ i, ¬ stored i → bufRead v.buf i = bufRead u.buf i) :
    sameWordsBut (fun b i => b = .cho n ∧ stored i) s (s.putCho n v) := by
  intro b i hn
  cases b <;> try rfl
  next m =>
    by_cases hm : m = n
    · subst hm
      simp only [State.word, State.putCho, getElem?_set_same hu, hu, Option.map_some, Option.getD_some]
      exact hb i fun h => hn ⟨rfl, h⟩
    · simp only [State.word, State.putCho, List.getElem?_set_ne (Ne.symm hm)]

/-- Only buffer `ks n` can change when only KS instance `n` is replaced. -/
theorem sameWordsBut_putKs {s : State} {n : Nat} {u v : Ks} {stored : Nat → Prop} (hu : s.ks[n]? = some u)
    (hb : ∀ i, ¬ stored i → bufRead v.buf i = bufRead u.buf i) :
    sameWordsBut (fun b i => b = .ks n ∧ stored i) s (s.putKs n v) := by
  intro b i hn
  cases b <;> try rfl
  next m =>
    by_cases hm : m = n
    · subst hm
      simp only [State.word, State.putKs, getElem?_set_same hu, hu, Option.map_some, Option.getD_some]
      exact hb i fun h => hn ⟨rfl, h⟩
    · simp only [State.word, State.putKs, List.getElem?_set_ne (Ne.symm hm)]

/-! ### Parameters -/

/-- An RW parameter has a class below 11 and an index below 5. -/
theorem access_rw_lt {u p : Nat} (h : access u p = some .rw) : u < 11 ∧ p < 5 := by
  have up : ∀ {rw all : Nat}, rw ≤ 5 →
      (if p < rw then some Access.rw else if p < all then some .ro else none) = some .rw → p < 5 := by
    intro rw all h5 hh
    split at hh
    · omega
    · split at hh <;> simp at hh
  unfold access at h
  split at h
  all_goals first
    | exact ⟨by omega, up (by omega) h⟩
    | simp at h

/-! ### Reset -/

/-- Every memory of a reset state lists nothing, so it is canonical: the units of every build. -/
theorem resetWith_memories_wf (c : Counts) (b : Build) (k : Nat) (h : List HostEvent) (r : List Word) :
    let s := State.resetWith c b k h r
    (∀ u ∈ s.dly, u.buf.wf) ∧ (∀ u ∈ s.cho, u.buf.wf) ∧ (∀ u ∈ s.ks, u.buf.wf) ∧
    (∀ j : Fin 8, s.rev.combs[j].buf.wf) ∧ (∀ j : Fin 4, s.rev.aps[j].buf.wf) := by
  refine ⟨?_, ?_, ?_, ?_, ?_⟩
  · intro u hu; rw [List.eq_of_mem_replicate hu]; exact Memory.wf_nil
  · intro u hu; rw [List.eq_of_mem_replicate hu]; exact Memory.wf_nil
  · intro u hu; rw [List.eq_of_mem_replicate hu]; exact Memory.wf_nil
  · intro j; simp [State.resetWith, revReset, combReset]; exact Memory.wf_nil
  · intro j; simp [State.resetWith, revReset, apReset]; exact Memory.wf_nil

/-- The memories of `State.reset` are canonical. -/
theorem reset_memories_wf :
    (∀ u ∈ State.reset.dly, u.buf.wf) ∧ (∀ u ∈ State.reset.cho, u.buf.wf) ∧ (∀ u ∈ State.reset.ks, u.buf.wf) ∧
    (∀ j : Fin 8, State.reset.rev.combs[j].buf.wf) ∧ (∀ j : Fin 4, State.reset.rev.aps[j].buf.wf) :=
  resetWith_memories_wf _ _ _ _ _

end Sys2Proof.Machine
end

