-- ==== Sys2Proof/Laws/PerInstr.lean ====
section
/-! SUPPORT. Facts about every command as syntax, one lemma a constructor. -/

namespace Sys2Proof.Laws

namespace EncodeOpcode

/-- The opcode field of an instruction's word is its opcode (30_encoding.md R101, R107). -/
def Statement (i : Instr) : Prop := opField (encode i) = i.opcode

theorem nop : Statement (.nop) := opField_packWord ..
theorem reset : Statement (.reset) := opField_packWord ..
theorem prep (s1 : Reg) : Statement (.prep s1) := opField_packWord ..
theorem pset (n : Nat) (s1 : Reg) (u : Nat) (p : Nat) : Statement (.pset n s1 u p) := opField_packWord ..
theorem pget (n : Nat) (d : Reg) (u : Nat) (p : Nat) : Statement (.pget n d u p) := opField_packWord ..
theorem svfLp (n : Nat) (d : Reg) (s1 : Reg) : Statement (.svfLp n d s1) := opField_packWord ..
theorem svfBp (n : Nat) (d : Reg) (s1 : Reg) : Statement (.svfBp n d s1) := opField_packWord ..
theorem svfHp (n : Nat) (d : Reg) (s1 : Reg) : Statement (.svfHp n d s1) := opField_packWord ..
theorem svfNotch (n : Nat) (d : Reg) (s1 : Reg) : Statement (.svfNotch n d s1) := opField_packWord ..
theorem lad (n : Nat) (d : Reg) (s1 : Reg) : Statement (.lad n d s1) := opField_packWord ..
theorem rev (n : Nat) (d : Reg) (s1 : Reg) : Statement (.rev n d s1) := opField_packWord ..
theorem dly (n : Nat) (d : Reg) (s1 : Reg) : Statement (.dly n d s1) := opField_packWord ..
theorem dlysz (n : Nat) (s1 : Reg) : Statement (.dlysz n s1) := opField_packWord ..
theorem cho (n : Nat) (d : Reg) (s1 : Reg) : Statement (.cho n d s1) := opField_packWord ..
theorem wt (n : Nat) (d : Reg) (s1 : Reg) : Statement (.wt n d s1) := opField_packWord ..
theorem fm (n : Nat) (d : Reg) (s1 : Reg) (s2 : Reg) : Statement (.fm n d s1 s2) := opField_packWord ..
theorem ks (n : Nat) (d : Reg) (s1 : Reg) : Statement (.ks n d s1) := opField_packWord ..
theorem ksf (n : Nat) (s1 : Reg) : Statement (.ksf n s1) := opField_packWord ..
theorem env (n : Nat) (d : Reg) (g : Bool) : Statement (.env n d g) := opField_packWord ..
theorem lfo (n : Nat) (d : Reg) : Statement (.lfo n d) := opField_packWord ..
theorem fadd (d : Reg) (s1 : Reg) (s2 : Reg) : Statement (.fadd d s1 s2) := opField_packWord ..
theorem fmul (d : Reg) (s1 : Reg) (s2 : Reg) : Statement (.fmul d s1 s2) := opField_packWord ..
theorem sclip (d : Reg) (s1 : Reg) : Statement (.sclip d s1) := opField_packWord ..

end EncodeOpcode

namespace EncodeUnderMask

/-- The word of an instruction lies in the row of the opcode map that has its mnemonic: under the row's mask it is the
row's match (30_encoding.md R106, R107). -/
def Statement (i : Instr) : Prop := ∃ row ∈ opcodeMap, row.1 = i.mnemonic ∧ encode i &&& row.2.2 = row.2.1

/-- A packed word is in a row when its fields are. -/
theorem in_row {w mask pattern : Word} {name : String} (h : (name, pattern, mask) ∈ opcodeMap)
    (hw : w &&& mask = pattern) : ∃ row ∈ opcodeMap, row.1 = name ∧ w &&& row.2.2 = row.2.1 :=
  ⟨_, h, rfl, hw⟩

theorem nop : Statement .nop :=
  in_row (name := "NOP") (pattern := 0x00000000) (mask := 0xFFFFFFFF) (by decide) (by decide)
theorem reset : Statement .reset :=
  in_row (name := "RESET") (pattern := 0x04000000) (mask := 0xFFFFFFFF) (by decide) (by decide)
theorem prep (s1 : Reg) : Statement (.prep s1) :=
  in_row (name := "PREP") (pattern := 0x08000000) (mask := 0xFFFC3FFF) (by decide) (by
    rw [show (0xFFFC3FFF : Word) = packWord 0x3f 0xf 0xf 0x0 0xf 0x3ff from by decide, encode, packWord_and]
    simp [packWord])
theorem pset (n : Nat) (s1 : Reg) (u : Nat) (p : Nat) : Statement (.pset n s1 u p) :=
  in_row (name := "PSET") (pattern := 0x0C000000) (mask := 0xFC3C3C00) (by decide) (by
    rw [show (0xFC3C3C00 : Word) = packWord 0x3f 0x0 0xf 0x0 0xf 0x0 from by decide, encode, packWord_and]
    simp [packWord])
theorem pget (n : Nat) (d : Reg) (u : Nat) (p : Nat) : Statement (.pget n d u p) :=
  in_row (name := "PGET") (pattern := 0x10000000) (mask := 0xFC03FC00) (by decide) (by
    rw [show (0xFC03FC00 : Word) = packWord 0x3f 0x0 0x0 0xf 0xf 0x0 from by decide, encode, packWord_and]
    simp [packWord])
theorem svfLp (n : Nat) (d : Reg) (s1 : Reg) : Statement (.svfLp n d s1) :=
  in_row (name := "SVF.LP") (pattern := 0x20000000) (mask := 0xFC003FFF) (by decide) (by
    rw [show (0xFC003FFF : Word) = packWord 0x3f 0x0 0x0 0x0 0xf 0x3ff from by decide, encode, packWord_and]
    simp [packWord])
theorem svfBp (n : Nat) (d : Reg) (s1 : Reg) : Statement (.svfBp n d s1) :=
  in_row (name := "SVF.BP") (pattern := 0x20000001) (mask := 0xFC003FFF) (by decide) (by
    rw [show (0xFC003FFF : Word) = packWord 0x3f 0x0 0x0 0x0 0xf 0x3ff from by decide, encode, packWord_and]
    simp [packWord])
theorem svfHp (n : Nat) (d : Reg) (s1 : Reg) : Statement (.svfHp n d s1) :=
  in_row (name := "SVF.HP") (pattern := 0x20000002) (mask := 0xFC003FFF) (by decide) (by
    rw [show (0xFC003FFF : Word) = packWord 0x3f 0x0 0x0 0x0 0xf 0x3ff from by decide, encode, packWord_and]
    simp [packWord])
theorem svfNotch (n : Nat) (d : Reg) (s1 : Reg) : Statement (.svfNotch n d s1) :=
  in_row (name := "SVF.NOTCH") (pattern := 0x20000003) (mask := 0xFC003FFF) (by decide) (by
    rw [show (0xFC003FFF : Word) = packWord 0x3f 0x0 0x0 0x0 0xf 0x3ff from by decide, encode, packWord_and]
    simp [packWord])
theorem lad (n : Nat) (d : Reg) (s1 : Reg) : Statement (.lad n d s1) :=
  in_row (name := "LAD") (pattern := 0x24000000) (mask := 0xFC003FFF) (by decide) (by
    rw [show (0xFC003FFF : Word) = packWord 0x3f 0x0 0x0 0x0 0xf 0x3ff from by decide, encode, packWord_and]
    simp [packWord])
theorem rev (n : Nat) (d : Reg) (s1 : Reg) : Statement (.rev n d s1) :=
  in_row (name := "REV") (pattern := 0x30000000) (mask := 0xFC003FFF) (by decide) (by
    rw [show (0xFC003FFF : Word) = packWord 0x3f 0x0 0x0 0x0 0xf 0x3ff from by decide, encode, packWord_and]
    simp [packWord])
theorem dly (n : Nat) (d : Reg) (s1 : Reg) : Statement (.dly n d s1) :=
  in_row (name := "DLY") (pattern := 0x40000000) (mask := 0xFC003FFF) (by decide) (by
    rw [show (0xFC003FFF : Word) = packWord 0x3f 0x0 0x0 0x0 0xf 0x3ff from by decide, encode, packWord_and]
    simp [packWord])
theorem dlysz (n : Nat) (s1 : Reg) : Statement (.dlysz n s1) :=
  in_row (name := "DLYSZ") (pattern := 0x44000000) (mask := 0xFC3C3FFF) (by decide) (by
    rw [show (0xFC3C3FFF : Word) = packWord 0x3f 0x0 0xf 0x0 0xf 0x3ff from by decide, encode, packWord_and]
    simp [packWord])
theorem cho (n : Nat) (d : Reg) (s1 : Reg) : Statement (.cho n d s1) :=
  in_row (name := "CHO") (pattern := 0x48000000) (mask := 0xFC003FFF) (by decide) (by
    rw [show (0xFC003FFF : Word) = packWord 0x3f 0x0 0x0 0x0 0xf 0x3ff from by decide, encode, packWord_and]
    simp [packWord])
theorem wt (n : Nat) (d : Reg) (s1 : Reg) : Statement (.wt n d s1) :=
  in_row (name := "WT") (pattern := 0x50000000) (mask := 0xFC003FFF) (by decide) (by
    rw [show (0xFC003FFF : Word) = packWord 0x3f 0x0 0x0 0x0 0xf 0x3ff from by decide, encode, packWord_and]
    simp [packWord])
theorem fm (n : Nat) (d : Reg) (s1 : Reg) (s2 : Reg) : Statement (.fm n d s1 s2) :=
  in_row (name := "FM") (pattern := 0x60000000) (mask := 0xFC0003FF) (by decide) (by
    rw [show (0xFC0003FF : Word) = packWord 0x3f 0x0 0x0 0x0 0x0 0x3ff from by decide, encode, packWord_and]
    simp [packWord])
theorem ks (n : Nat) (d : Reg) (s1 : Reg) : Statement (.ks n d s1) :=
  in_row (name := "KS") (pattern := 0x70000000) (mask := 0xFC003FFF) (by decide) (by
    rw [show (0xFC003FFF : Word) = packWord 0x3f 0x0 0x0 0x0 0xf 0x3ff from by decide, encode, packWord_and]
    simp [packWord])
theorem ksf (n : Nat) (s1 : Reg) : Statement (.ksf n s1) :=
  in_row (name := "KSF") (pattern := 0x74000000) (mask := 0xFC3C3FFF) (by decide) (by
    rw [show (0xFC3C3FFF : Word) = packWord 0x3f 0x0 0xf 0x0 0xf 0x3ff from by decide, encode, packWord_and]
    simp [packWord])
theorem env (n : Nat) (d : Reg) (g : Bool) : Statement (.env n d g) :=
  in_row (name := "ENV") (pattern := 0x80000000) (mask := 0xFC03FFFE) (by decide) (by
    rw [show (0xFC03FFFE : Word) = packWord 0x3f 0x0 0x0 0xf 0xf 0x3fe from by decide, encode, packWord_and]
    cases g <;> simp [packWord])
theorem lfo (n : Nat) (d : Reg) : Statement (.lfo n d) :=
  in_row (name := "LFO") (pattern := 0x84000000) (mask := 0xFC03FFFF) (by decide) (by
    rw [show (0xFC03FFFF : Word) = packWord 0x3f 0x0 0x0 0xf 0xf 0x3ff from by decide, encode, packWord_and]
    simp [packWord])
theorem fadd (d : Reg) (s1 : Reg) (s2 : Reg) : Statement (.fadd d s1 s2) :=
  in_row (name := "FADD") (pattern := 0xA0000000) (mask := 0xFFC003FF) (by decide) (by
    rw [show (0xFFC003FF : Word) = packWord 0x3f 0xf 0x0 0x0 0x0 0x3ff from by decide, encode, packWord_and]
    simp [packWord])
theorem fmul (d : Reg) (s1 : Reg) (s2 : Reg) : Statement (.fmul d s1 s2) :=
  in_row (name := "FMUL") (pattern := 0xA4000000) (mask := 0xFFC003FF) (by decide) (by
    rw [show (0xFFC003FF : Word) = packWord 0x3f 0xf 0x0 0x0 0x0 0x3ff from by decide, encode, packWord_and]
    simp [packWord])
theorem sclip (d : Reg) (s1 : Reg) : Statement (.sclip d s1) :=
  in_row (name := "SCLIP") (pattern := 0xA8000000) (mask := 0xFFC03FFF) (by decide) (by
    rw [show (0xFFC03FFF : Word) = packWord 0x3f 0xf 0x0 0x0 0xf 0x3ff from by decide, encode, packWord_and]
    simp [packWord])

end EncodeUnderMask

end Sys2Proof.Laws
end

