-- ==== Sys2Proof/Laws/Step.lean ====
section
/-! SUPPORT. What a step can do, said once: idle, reset, serve one access, or run one command; and what serving accesses can
do. -/

namespace Sys2Proof.Machine

/-- Everything a step can do. -/
theorem step_cases {s t : State} (h : step s = .next t) :
    (s.host = [] ∧ t = s) ∨
    (∃ es, s.host = .hardReset :: es ∧ t = hardReset { s with host := es }) ∨
    (∃ op early es, s.host = .access op early :: es ∧ (commandOf op = none ∨ s.status.busy = true) ∧
      t = serve op { s with host := es }) ∨
    (∃ op early es w, s.host = .access op early :: es ∧ s.status.busy = false ∧ commandOf op = some w ∧
      runCommand w { s with host := es } = .next t) := by
  unfold step nextEvent at h
  split at h
  · next hh => exact .inl ⟨hh, by simpa using h.symm⟩
  · next es hh => exact .inr (.inl ⟨es, hh, by simpa using h.symm⟩)
  · next op early es hh =>
    split at h
    · next w hb hc => exact .inr (.inr (.inr ⟨op, early, es, w, hh, hb, hc, h⟩))
    · next hno =>
      refine .inr (.inr (.inl ⟨op, early, es, hh, ?_, by simpa using h.symm⟩))
      rcases hb : s.status.busy with _ | _
      · rcases hc : commandOf op with _ | w
        · exact .inl rfl
        · exact (hno w hb hc).elim
      · exact .inr rfl

/-- The state in which the command runs: BUSY is 1, the readback holds the word, the overlapping accesses are served. -/
def startedFrom (w : Word) (s : State) : State :=
  serveAll (overlapping s.host) (startCommand w { s with host := afterOverlap s.host })

/-- Everything a CMD write can do: the decoded command's effect, or E_ILLEGAL_OP. -/
theorem runCommand_cases {w : Word} {s t : State} (h : runCommand w s = .next t) :
    (∃ i u, decode w = .ok i ∧ exec i (startedFrom w s) = .next u ∧ t = finishCommand u) ∨
    (∃ r, decode w = .error r ∧ t = finishCommand ((startedFrom w s).record .illegalOp (opField w))) := by
  obtain ⟨u, hu, rfl⟩ := mapNext_cases h
  unfold execWord at hu
  split at hu
  · next i hi => exact .inl ⟨i, u, hi, hu, rfl⟩
  · next r hr => exact .inr ⟨r, hr, by simp only [raise_eq, Host.Outcome.next.injEq] at hu; rw [← hu]; rfl⟩

/-- With nothing overlapping, the command runs in the state that `startCommand` gives. -/
theorem startedFrom_alone {w : Word} {s : State} (h : overlapping s.host = []) :
    startedFrom w s = startCommand w s := by
  have : afterOverlap s.host = s.host := by
    unfold overlapping at h
    unfold afterOverlap
    split <;> simp_all
  simp only [startedFrom, h, serveAll, this]

/-! ### Serving accesses -/

/-- Everything one access can do to STATUS: nothing, record an error, or the host's write. -/
theorem serve_status_cases (op : BusOp) (s : State) :
    (serve op s).status = s.status ∨ (∃ e v, (serve op s).status = recordError e v s.status) ∨
    (∃ v, (serve op s).status = statusWrite v s.status) := by
  cases op with
  | read o n =>
    simp only [serve, hostRead]
    split
    · exact .inr (.inl ⟨_, _, rfl⟩)
    · split
      · split
        · exact .inr (.inl ⟨_, _, rfl⟩)
        · exact .inl rfl
      · split
        · exact .inr (.inl ⟨_, _, rfl⟩)
        · exact .inl rfl
      · exact .inl rfl
      · exact .inl rfl
      · exact .inr (.inl ⟨_, _, rfl⟩)
  | write o l =>
    simp only [serve, hostWrite]
    split
    · exact .inr (.inl ⟨_, _, rfl⟩)
    · split
      · split
        · exact .inr (.inl ⟨_, _, rfl⟩)
        · exact .inl rfl
      · split
        · exact .inr (.inl ⟨_, _, rfl⟩)
        · exact .inl rfl
      · exact .inr (.inr ⟨_, rfl⟩)
      · exact .inr (.inl ⟨_, _, rfl⟩)
      · exact .inr (.inl ⟨_, _, rfl⟩)

/-- An access touches only the data registers, STATUS and the log of returned words. -/
theorem serve_sameBut (op : BusOp) (s : State) : sameBut [.x, .status, .reads] s (serve op s) := by
  cases op with
  | read o n =>
    simp only [serve, hostRead]
    repeat' split
    all_goals (intro p hp; cases p <;> first | rfl | (simp at hp))
  | write o l =>
    simp only [serve, hostWrite]
    repeat' split
    all_goals (intro p hp; cases p <;> first | rfl | (simp at hp))

/-- So do accesses in a row. -/
theorem serveAll_sameBut (ops : List BusOp) (s : State) : sameBut [.x, .status, .reads] s (serveAll ops s) := by
  induction ops generalizing s with
  | nil => intro p _; cases p <;> rfl
  | cons op ops ih =>
    intro p hp
    have h1 := serve_sameBut op s p hp
    have h2 := ih (serve op s) p hp
    cases p <;> simp_all [Part.same, serveAll]

@[simp] theorem serve_busy (op : BusOp) (s : State) : (serve op s).status.busy = s.status.busy := by
  rcases serve_status_cases op s with h | ⟨e, v, h⟩ | ⟨v, h⟩
  · rw [h]
  · rw [h, recordError_busy]
  · rw [h]; unfold statusWrite; split <;> rfl

@[simp] theorem serveAll_busy (ops : List BusOp) (s : State) : (serveAll ops s).status.busy = s.status.busy := by
  induction ops generalizing s with
  | nil => rfl
  | cons op ops ih => rw [serveAll, ih, serve_busy]

end Sys2Proof.Machine
end

