-- ==== Sys2Proof/Machine/Assembler.lean ====
section
/-! DEFINITION. The assembly text of 30_encoding.md R111 and R112: one line to one command word, or a rejection. A host tool, not
part of the datapath: no step reads it. -/

namespace Sys2Proof.Machine

/-- What a line of assembly gives. -/
inductive AsmLine where
  /-- Nothing but spaces and a comment. -/
  | blank
  /-- One command word. -/
  | word (w : Word)
  /-- Rejected. -/
  | rejected
deriving DecidableEq, Repr

/-! ### Tokens -/

/-- The text before the first `;`, which starts a comment (R111). -/
def dropComment (cs : List Char) : List Char := cs.takeWhile (· != ';')

/-- Words and commas of a line; `cur` is the word being read, last character first. -/
def tokens : (cs cur : List Char) → List (List Char)
  | [], [] => []
  | [], c :: cur => [(c :: cur).reverse]
  | ch :: cs, cur =>
    let rest := tokens cs []
    if ch = ' ' ∨ ch = '\t' then (if cur = [] then rest else cur.reverse :: rest)
    else if ch = ',' then (if cur = [] then [','] :: rest else cur.reverse :: [','] :: rest)
    else tokens cs (ch :: cur)

/-- Operands separated by commas. -/
def operands : List (List Char) → Option (List (List Char))
  | [] => some []
  | [a] => if a = [','] then none else some [a]
  | a :: c :: rest =>
    if a = [','] ∨ c ≠ [','] ∨ rest = [] then none
    else (operands rest).map (a :: ·)

/-! ### Numbers, registers and parameters -/

/-- The value of one digit in base `base`, 16 at most. -/
def digit (base : Nat) (ch : Char) : Option Nat :=
  let v :=
    if '0' ≤ ch ∧ ch ≤ '9' then ch.toNat - 48
    else if 'A' ≤ ch ∧ ch ≤ 'F' then ch.toNat - 55
    else if 'a' ≤ ch ∧ ch ≤ 'f' then ch.toNat - 87
    else base
  if v < base then some v else none

/-- Digits in base `base` after the value `acc`. -/
def digitsFrom (base : Nat) : (acc : Nat) → List Char → Option Nat
  | acc, [] => some acc
  | acc, ch :: cs => (digit base ch).bind fun v => digitsFrom base (base * acc + v) cs

/-- A number in base `base`, at least one digit. -/
def number (base : Nat) (cs : List Char) : Option Nat := if cs = [] then none else digitsFrom base 0 cs

/-- `x0` … `x15` (R111). -/
def register : List Char → Option Reg
  | 'x' :: cs => (number 10 cs).bind fun n => if h : n < 16 then some ⟨n, h⟩ else none
  | _ => none

/-- The classes of 10_state.md R41 and their parameter names in the order of their indices (R42 to R52). -/
def parameterNames : List (String × List String) :=
  [("glb", ["SR", "NUMTAB", "TABSZ", "CHOSZ", "DLYMAX", "KSMAX"]),
   ("svf", ["FC", "Q", "F", "QC", "LOW", "BAND", "HIGH", "NOTCH"]),
   ("lad", ["FB", "STAGE0", "STAGE1", "STAGE2", "STAGE3", "DELAY0", "DELAY1", "DELAY2", "DELAY3"])] ++
  [("rev", ["FB", "ROOM", "DAMP", "WET", "APFB", "LO0", "LO1", "LO2", "LO3", "LO4", "LO5", "LO6", "LO7",
      "CIDX0", "CIDX1", "CIDX2", "CIDX3", "CIDX4", "CIDX5", "CIDX6", "CIDX7"] ++
     ["AIDX0", "AIDX1", "AIDX2", "AIDX3", "CLEN0", "CLEN1", "CLEN2", "CLEN3", "CLEN4", "CLEN5", "CLEN6", "CLEN7",
      "ALEN0", "ALEN1", "ALEN2", "ALEN3"]),
   ("dly", ["DELAY", "FB", "MIX", "SIZE", "WPTR"]),
   ("cho", ["RATE", "DEPTH", "BASE", "MIX", "LFOPH", "WPTR"])] ++
  [("wt", ["MORPH"]),
   ("fm", ["RATIO", "AMP", "FBK", "PHASE", "LAST"]),
   ("ks", ["FB", "DAMP", "SIZE", "CURSOR", "LAST", "FREQ"]),
   ("env", ["ATT", "DEC", "SUS", "REL", "LEVEL", "STAGE"]),
   ("lfo", ["RATE", "PHASE"])]

/-- A parameter: `<class>.<NAME>` (R111), or `u:p` in numbers that fit FN (R112). -/
def parameter (cs : List Char) : Option (Nat × Nat) :=
  let head := cs.takeWhile (fun c => c != '.' && c != ':')
  match cs.drop head.length with
  | '.' :: name => do
    let u ← parameterNames.findIdx? (fun row => row.1 == String.ofList head)
    let row ← parameterNames[u]?
    let p ← row.2.findIdx? (· == String.ofList name)
    some (u, p)
  | ':' :: index => do
    let u ← number 10 head
    let p ← number 10 index
    if u < 16 ∧ p < 64 then some (u, p) else none
  | _ => none

/-- The gate, 0 or 1 (R111). -/
def gate : List Char → Option Bool
  | ['0'] => some false
  | ['1'] => some true
  | _ => none

/-- A mnemonic and its suffix `@n`, `n` decimal 0–15, if it has one (R111). -/
def splitMnemonic (cs : List Char) : Option (String × Option Nat) :=
  let head := cs.takeWhile (· != '@')
  match cs.drop head.length with
  | [] => some (String.ofList head, none)
  | _ :: inst => (number 10 inst).bind fun n => if n < 16 then some (String.ofList head, some n) else none

/-! ### Lines -/

/-- The instruction of a line: the rows of R111 and the pseudo-instructions of R112. An omitted suffix means `@0`; only a
command whose row shows a suffix takes one (notes/assumptions/4.md). -/
def assembleInstr (name : String) (suffix : Option Nat) (ops : List (List Char)) : Option Instr :=
  let n := suffix.getD 0
  match name, ops with
  | "nop", [] => if suffix = none then some .nop else none
  | "reset", [] => if suffix = none then some .reset else none
  | "prep", [a] => if suffix = none then (register a).map .prep else none
  | "pset", [q, a] => do let (u, p) ← parameter q; let s1 ← register a; some (.pset n s1 u p)
  | "pget", [a, q] => do let d ← register a; let (u, p) ← parameter q; some (.pget n d u p)
  | "svf.lp", [a, b] => do let d ← register a; let s1 ← register b; some (.svfLp n d s1)
  | "svf.bp", [a, b] => do let d ← register a; let s1 ← register b; some (.svfBp n d s1)
  | "svf.hp", [a, b] => do let d ← register a; let s1 ← register b; some (.svfHp n d s1)
  | "svf.notch", [a, b] => do let d ← register a; let s1 ← register b; some (.svfNotch n d s1)
  | "lad", [a, b] => do let d ← register a; let s1 ← register b; some (.lad n d s1)
  | "rev", [a, b] => if suffix = none then do let d ← register a; let s1 ← register b; some (.rev n d s1) else none
  | "dly", [a, b] => do let d ← register a; let s1 ← register b; some (.dly n d s1)
  | "dlysz", [a] => do let s1 ← register a; some (.dlysz n s1)
  | "cho", [a, b] => do let d ← register a; let s1 ← register b; some (.cho n d s1)
  | "wt", [a, b] => do let d ← register a; let s1 ← register b; some (.wt n d s1)
  | "fm", [a, b, c] => do let d ← register a; let s1 ← register b; let s2 ← register c; some (.fm n d s1 s2)
  | "ks", [a, b] => do let d ← register a; let s1 ← register b; some (.ks n d s1)
  | "ksf", [a] => do let s1 ← register a; some (.ksf n s1)
  | "env", [a, g] => do let d ← register a; let on ← gate g; some (.env n d on)
  | "env.on", [a] => do let d ← register a; some (.env n d true)
  | "env.off", [a] => do let d ← register a; some (.env n d false)
  | "lfo", [a] => do let d ← register a; some (.lfo n d)
  | "fadd", [a, b, c] =>
    if suffix = none then do let d ← register a; let s1 ← register b; let s2 ← register c; some (.fadd d s1 s2)
    else none
  | "fmul", [a, b, c] =>
    if suffix = none then do let d ← register a; let s1 ← register b; let s2 ← register c; some (.fmul d s1 s2)
    else none
  | "sclip", [a, b] => if suffix = none then do let d ← register a; let s1 ← register b; some (.sclip d s1) else none
  | _, _ => none

/-- `.word 0xHHHHHHHH`: the raw command word (R112). -/
def rawWord : List Char → Option Word
  | '0' :: 'x' :: cs => if cs.length = 8 then (number 16 cs).map (BitVec.ofNat 32) else none
  | _ => none

/-- One line of assembly (R111, R112), encoded by R101 with every unused field zero. -/
def assemble (line : String) : AsmLine :=
  match tokens (dropComment line.toList) [] with
  | [] => .blank
  | head :: rest =>
    let w : Option Word := do
      let ops ← operands rest
      if String.ofList head = ".word" then
        match ops with
        | [a] => rawWord a
        | _ => none
      else
        let (name, suffix) ← splitMnemonic head
        let i ← assembleInstr name suffix ops
        some (encode i)
    match w with
    | some v => .word v
    | none => .rejected

end Sys2Proof.Machine
end

