-- ==== Sys2Proof/Tests/Slice0.lean ====
section
/-! SUPPORT. The model's own tests: ill-formed terms refused, one word a command decoded, single steps against
95_test_vectors.md (the vector is named in each docstring), and a witness for the hypotheses of every statement. -/

namespace Sys2Proof.Tests

/- One theorem after the other: a `decide +kernel` waits for the kernel to finish every theorem before it, and, elaborated in
parallel, each waiting theorem holds a thread and its stack, about thirty at once. -/
set_option Elab.async false

open Sys2Proof Sys2Proof.Machine

/-! ### WellFormed: each check refuses an ill-formed term -/

theorem test_wf_refuses_instance_16 : (Instr.lad 16 0 0).wellFormed = false := by decide
theorem test_wf_accepts_instance_15 : (Instr.lad 15 15 15).wellFormed = true := by decide
theorem test_wf_refuses_class_16 : (Instr.pset 0 0 16 0).wellFormed = false := by decide
theorem test_wf_refuses_index_64 : (Instr.pget 0 0 0 64).wellFormed = false := by decide
theorem test_wf_refuses_pset_instance_16 : (Instr.pset 16 0 0 0).wellFormed = false := by decide

/-! ### Decoding: words written out from 30_encoding.md R101 and R107 -/

/-- `{OP 0x00, 0, 0, 0, 0, 0}` (V-ENC-1). -/
theorem test_decode_nop : decode 0b000000_0000_0000_0000_0000_0000000000 = .ok .nop := by decide
/-- V-ENC-3. -/
theorem test_decode_reset : decode 0b000001_0000_0000_0000_0000_0000000000 = .ok .reset := by decide
/-- RS1 = 1 (V-ENC-5, `0x08004000`). -/
theorem test_decode_prep : decode 0b000010_0000_0000_0001_0000_0000000000 = .ok (.prep 1) := by decide
/-- RS1 = 1, u = 3, p = 2 (V-ENC-7, `0x0C0040C2`). -/
theorem test_decode_pset : decode 0b000011_0000_0000_0001_0000_0011_000010 = .ok (.pset 0 1 3 2) := by decide
/-- RD = 2, u = 9, p = 5 (V-ENC-9, `0x10080245`). -/
theorem test_decode_pget : decode 0b000100_0000_0010_0000_0000_1001_000101 = .ok (.pget 0 2 9 5) := by decide
/-- INST = 4, RD = 2, RS1 = 3 (V-ERR-4, `0x2108C000`). -/
theorem test_decode_svf_lp : decode 0b001000_0100_0010_0011_0000_0000000000 = .ok (.svfLp 4 2 3) := by decide
theorem test_decode_svf_bp : decode 0b001000_0001_0010_0100_0000_0000000001 = .ok (.svfBp 1 2 4) := by decide
theorem test_decode_svf_hp : decode 0b001000_0001_0010_0100_0000_0000000010 = .ok (.svfHp 1 2 4) := by decide
/-- V-ENC-11, `0x20084003`. -/
theorem test_decode_svf_notch : decode 0b001000_0000_0010_0001_0000_0000000011 = .ok (.svfNotch 0 2 1) := by decide
/-- V-ENC-13. -/
theorem test_decode_lad : decode 0b001001_0000_0010_0001_0000_0000000000 = .ok (.lad 0 2 1) := by decide
/-- V-ENC-15. -/
theorem test_decode_rev : decode 0b001100_0000_0010_0001_0000_0000000000 = .ok (.rev 0 2 1) := by decide
/-- P1 row 4, `0x40190000`. -/
theorem test_decode_dly : decode 0b010000_0000_0110_0100_0000_0000000000 = .ok (.dly 0 6 4) := by decide
/-- P1 row 1, `0x44004000`. -/
theorem test_decode_dlysz : decode 0b010001_0000_0000_0001_0000_0000000000 = .ok (.dlysz 0 1) := by decide
theorem test_decode_cho : decode 0b010010_0001_0010_0100_0000_0000000000 = .ok (.cho 1 2 4) := by decide
/-- P6 row a, `0x50104000`. -/
theorem test_decode_wt : decode 0b010100_0000_0100_0001_0000_0000000000 = .ok (.wt 0 4 1) := by decide
/-- P4 row b, `0x61114400`. -/
theorem test_decode_fm : decode 0b011000_0100_0100_0101_0001_0000000000 = .ok (.fm 4 4 5 1) := by decide
/-- P2 row 4, `0x7014C000`. -/
theorem test_decode_ks : decode 0b011100_0000_0101_0011_0000_0000000000 = .ok (.ks 0 5 3) := by decide
/-- V-ENC-29, `0x74404000`. -/
theorem test_decode_ksf : decode 0b011101_0001_0000_0001_0000_0000000000 = .ok (.ksf 1 1) := by decide
/-- V-ENC-20, `0x80140001`. -/
theorem test_decode_env : decode 0b100000_0000_0101_0000_0000_0000000001 = .ok (.env 0 5 true) := by decide
/-- V-ENC-22, `0x84080000`. -/
theorem test_decode_lfo : decode 0b100001_0000_0010_0000_0000_0000000000 = .ok (.lfo 0 2) := by decide
/-- V-ENC-25, `0xA00C4800`. -/
theorem test_decode_fadd : decode 0b101000_0000_0011_0001_0010_0000000000 = .ok (.fadd 3 1 2) := by decide
theorem test_decode_fmul : decode 0b101001_0000_0011_0001_0010_0000000000 = .ok (.fmul 3 1 2) := by decide
/-- `0xA8084000` (48_mix.md R334). -/
theorem test_decode_sclip : decode 0b101010_0000_0010_0001_0000_0000000000 = .ok (.sclip 2 1) := by decide
/-- V-ENC-2, V-ENC-8, V-ENC-21, V-ENC-26, V-ENC-27: a must-be-zero field. -/
theorem test_decode_must_be_zero :
    decode 0x00000001 = .error .mustBeZero ∧ decode 0x0C0440C2 = .error .mustBeZero ∧
    decode 0x80140002 = .error .mustBeZero ∧ decode 0xA04C4800 = .error .mustBeZero ∧
    decode 0xA8084400 = .error .mustBeZero := by decide
/-- V-ENC-16, V-ENC-19: a reserved opcode. -/
theorem test_decode_reserved :
    decode 0x14000000 = .error .reservedOpcode ∧ decode 0xFFFFFFFF = .error .reservedOpcode := by decide
theorem test_decode_table_word : decodeTableWord 32 0xA00C4800 = some (.fadd 3 1 2) := by decide

/-! ### Small states -/

/-- The tables of S-WT, the capacity of S-DLY (95_test_vectors.md), and short reverb buffers. -/
def tinyBuild : Build :=
  { numTables := 2, tableSize := 4, wtHstep := 1
    wtRom := .words [[0, 0x3F800000, 0, 0xBF800000], [0, 0x3F000000, 0, 0xBF000000]]
    dlyMax := 16, ksMax := 4096
    combLen := #v[3, 5, 7, 11, 13, 17, 19, 23], apLen := #v[2, 29, 31, 37], trig := .reference }

/-- One unit of each kind, two operators. -/
def tiny : State :=
  State.resetWith { svf := 1, lad := 1, dly := 1, cho := 1, wt := 1, fm := 2, ks := 1, env := 1, lfo := 1 } tinyBuild 0
    [] []

/-- `tiny` with `a` in X1 and `b` in X2. -/
def tinyX (a b : Word) : State := (tiny.putX 1 a).putX 2 b

/-- The state after one command; the state itself if it stops (none does). -/
def after (i : Instr) (s : State) : State :=
  match exec i s with
  | .next t => t
  | .fault _ => s
  | .refused _ => s

/-- STATUS as the host reads it. -/
def statusOf (s : State) : Word := statusWord s.status

/-- The state after one step; the state itself if it stops (none does). -/
def stepped (s : State) : State :=
  match step s with
  | .next t => t
  | .fault _ => s
  | .refused _ => s

/-! ### One step a command -/

/-- V-CTL-14, by a whole step. -/
theorem test_nop : (stepped ((tinyX 1 2).withFetchWord 32 0)).getX 2 = 2 ∧
    statusOf (stepped ((tinyX 1 2).withFetchWord 32 0)) = 0 := by decide +kernel

/-- R393: an envelope is Off at 0.0; a register is kept. -/
theorem test_reset :
    (after .reset { tinyX 1 2 with env := [{ envReset with level := 0x3F000000, stage := .decay }] }).env = [envReset] ∧
    (after .reset (tinyX 1 2)).getX 1 = 1 := by decide +kernel

/-- V-CTL-1. -/
theorem test_prep : (after (.prep 1) (tinyX 0x47000000 0)).sr = 0x47000000 := by decide +kernel
/-- V-CTL-2: -0.0. -/
theorem test_prep_refuses_negative_zero : statusOf (after (.prep 1) (tinyX 0x80000000 0)) = 0x251 := by decide +kernel

/-- V-CTL-7. -/
theorem test_pset : (after (.pset 0 1 3 2) (tinyX 0x3F000000 0)).rev.damp = 0x3F000000 := by decide +kernel
/-- V-SVF-2: Q = 0.25 is clamped up to 0.5, so QC = 2.0; V-CTL-12: SVF.F is read-only. -/
theorem test_pset_rederives : (after (.pset 0 1 1 1) (tinyX 0x3E800000 0)).svf.map (·.qc) = [0x40000000] ∧
    statusOf (after (.pset 0 1 1 2) (tinyX 0x3F800000 0)) = 0x341 := by decide +kernel

/-- V-CTL-8, and KS.SIZE. -/
theorem test_pget :
    (after (.pget 0 2 9 5) (tinyX 1 7)).getX 2 = 0 ∧ (after (.pget 0 2 8 2) (tinyX 1 7)).getX 2 = 4096 := by decide +kernel
/-- V-ERR-5, V-ERR-6: the class, then the instance, then the index. -/
theorem test_pget_checks : statusOf (after (.pget 0 2 11 0) tiny) = 0x431 ∧
    statusOf (after (.pget 5 2 1 8) tiny) = 0x421 := by decide +kernel

/-- SVF0 after step 0 of V-SVF-3. -/
def svfStruck : Svf :=
  { fc := 0x447A0000, q := 0x3F800000, f := 0x3E11C59C, qc := 0x3F800000,
    low := 0, band := 0x3E11C59C, high := 0x3F800000, notch := 0x3F800000 }

/-- V-SVF-3, step 1, each output. -/
theorem test_svf_lp : (after (.svfLp 0 3 1) { tinyX 0 0 with svf := [svfStruck] }).getX 3 = 0x3CA602E7 := by decide +kernel
theorem test_svf_bp : (after (.svfBp 0 3 1) { tinyX 0 0 with svf := [svfStruck] }).getX 3 = 0x3DF42202 := by decide +kernel
theorem test_svf_hp : (after (.svfHp 0 3 1) { tinyX 0 0 with svf := [svfStruck] }).getX 3 = 0xBE2685F9 := by decide +kernel
theorem test_svf_notch :
    (after (.svfNotch 0 3 1) { tinyX 0 0 with svf := [svfStruck] }).getX 3 = 0xBE11C59C := by decide +kernel
/-- V-ERR-1: an infinity is refused, its destination kept. -/
theorem test_svf_nonfinite :
    statusOf (after (.svfLp 0 2 1) (tinyX 0x7F800000 9)) = 0x861 ∧
    (after (.svfLp 0 2 1) (tinyX 0x7F800000 9)).getX 2 = 9 := by decide +kernel

/-- V-LAD-1, step 0. -/
theorem test_lad : (after (.lad 0 2 1) (tinyX 0x3F800000 0)).getX 2 = 0x3F42F7D6 := by decide +kernel
/-- V-LAD-1, step 1 with FB = 4.0. -/
theorem test_lad_feedback :
    (after (.lad 0 2 1) { tinyX 0 0 with
      lad := [{ fb := 0x40800000
                stage := #v[0x3F42F7D6, 0x3F42F7D6, 0x3F42F7D6, 0x3F42F7D6]
                delay := #v[0x3F42F7D6, 0x3F42F7D6, 0x3F42F7D6, 0x3F42F7D6] }] }).getX 2 = 0xC07396AC := by decide +kernel

/-- V-REV-1: comb 0 returns the 1.0 it stored. -/
theorem test_rev :
    let t := after (.rev 0 2 1) { tinyX 0 0 with
      rev := { revReset with combs := revReset.combs.set 0 { lo := 0, idx := 0, buf := [(0, 0x3F800000)] } } }
    t.getX 2 = 0x3C000000 ∧ t.rev.combs[0].lo = 0x3F000000 ∧ t.word (.comb 0) 0 = 0x3ED70A3D ∧
    t.rev.combs[0].idx = 1 := by decide +kernel
/-- 30_encoding.md R109: any reverb instance but 0 is E_BAD_INST. -/
theorem test_rev_instance : statusOf (after (.rev 1 2 1) tiny) = 0xC21 := by decide +kernel

/-- P1, row 6: the 1.0 stored two steps ago. -/
theorem test_dly :
    let t := after (.dly 0 2 1) { tinyX 0 0 with
      dly := [{ delay := 2, fb := 0x3F000000, mix := 0x3F000000, size := 4, wptr := 2, buf := [(0, 0x3F800000)] }] }
    t.getX 2 = 0x3F000000 ∧ t.word (.dly 0) 2 = 0x3F000000 ∧ t.dly.map (·.wptr) = [3] := by decide +kernel
/-- P1, row 4: the read position wraps, and the cursor. -/
theorem test_dly_wraps :
    let t := after (.dly 0 2 1) { tinyX 0 0 with
      dly := [{ delay := 4, fb := 0, mix := 0x3F800000, size := 4, wptr := 3, buf := [(3, 0x3F800000)] }] }
    t.getX 2 = 0x3F800000 ∧ t.word (.dly 0) 3 = 0 ∧ t.dly.map (·.wptr) = [0] := by decide +kernel

/-- V-DLY-3: SIZE 2, DELAY 3 clamped to 2. -/
theorem test_dlysz :
    (after (.dlysz 0 1) { tinyX 2 0 with
      dly := [{ delay := 3, fb := 0, mix := 0, size := 3, wptr := 1, buf := [(0, 5), (2, 7)] }] }).dly =
    [{ delay := 2, fb := 0, mix := 0, size := 2, wptr := 0, buf := [(2, 7)] }] := by decide +kernel
/-- V-DLY-3: 17 is above `DLY_MAX` = 16. -/
theorem test_dlysz_refused : statusOf (after (.dlysz 0 1) (tinyX 17 0)) = 0x1171 := by decide +kernel

/-- V-CHO-1: BASE 2.5, MIX 1, the step that reads half of the impulse. -/
theorem test_cho :
    (after (.cho 0 2 1) { tinyX 0 0 with
      cho := [{ choReset with base := 0x40200000, mix := 0x3F800000, wptr := 2, buf := [(0, 0x3F800000)] }] }).getX 2 =
    0x3F000000 := by decide +kernel
/-- V-CHO-4: BASE 1e9 is clamped to 4094. -/
theorem test_cho_clamped :
    (after (.cho 0 2 1) { tinyX 0x40400000 0 with cho := [{ choReset with base := 0x4E6E6B28 }] }).getX 2 =
    0x3FC00000 := by decide +kernel

/-- V-WT-6. -/
theorem test_wt :
    (after (.wt 0 2 1) { tinyX 0x3E99999A 0 with wt := [{ morph := 0x3E800000 }] }).getX 2 = 0x3F333332 := by decide +kernel
/-- V-WT-5: a negative phase wraps. -/
theorem test_wt_wraps : (after (.wt 0 2 1) (tinyX 0xBE800000 0)).getX 2 = 0xBF800000 := by decide +kernel

/-- V-FM-2, step 2: self-feedback. -/
theorem test_fm :
    (after (.fm 0 3 1 2) { tinyX 0 0x462C4400 with
      fm := [{ fmReset with fbk := 0x3F000000, phase := 0x3F000000, last := 0x3F800000 }] }).getX 3 =
    0x343BBD2E := by decide +kernel
/-- V-FM-3: a negative carrier runs the phase backwards. -/
theorem test_fm_negative_carrier :
    (after (.fm 0 3 1 2) (tinyX 0x3E800000 0xC62C4400)).fm.map (·.phase) = [0x3F400000, 0] := by decide +kernel

/-- P2, step 5: the string returns the excitation and keeps a quarter of it. -/
theorem test_ks :
    let t := after (.ks 0 2 1) { tinyX 0 0 with
      ks := [{ fb := 0x3F000000, damp := 0x3F000000, size := 4, cursor := 3, last := 0, freq := 0,
               buf := [(3, 0x3F800000)] }] }
    t.getX 2 = 0x3F800000 ∧ t.word (.ks 0) 3 = 0x3E800000 ∧ t.ks.map (·.cursor) = [0] ∧
    t.ks.map (·.last) = [0x3F800000] := by decide +kernel
/-- R281: SIZE = 1, the loop is one word long. -/
theorem test_ks_one_word :
    (after (.ks 0 2 1) { tinyX 0x3F800000 0 with ks := [{ ksReset tinyBuild with size := 1 }] }).word (.ks 0) 0 =
    0x3F800000 := by decide +kernel

/-- V-KS-1: 2.5 rounds to 3. -/
theorem test_ksf : (after (.ksf 0 1) (tinyX 0x4689D000 0)).ks.map (·.size) = [3] := by decide +kernel
/-- V-KS-1: 100000 Hz. -/
theorem test_ksf_refused :
    statusOf (after (.ksf 0 1) (tinyX 0x47C35000 0)) = 0x1D71 ∧
    statusOf (after (.ksf 0 1) (tinyX 0xC0A00000 0)) = 0x1D51 := by decide +kernel

/-- V-ENV-1, step 0: SR = 4, ATT = 1. -/
theorem test_env :
    (after (.env 0 2 true) { tinyX 0 0 with sr := 0x40800000, env := [{ envReset with att := 0x3F800000 }] }).env =
    [{ envReset with att := 0x3F800000, level := 0x3E800000, stage := .attack }] := by decide +kernel
/-- V-ENV-2: a gate-on in Release resumes from the current level. -/
theorem test_env_retrigger :
    (after (.env 0 2 true) { tinyX 0 0 with
      sr := 0x40800000
      env := [{ envReset with att := 0x3F800000, level := 0x3E800000, stage := .release }] }).getX 2 =
    0x3F000000 := by decide +kernel

/-- V-LFO-1: at phase 0.5. -/
theorem test_lfo :
    let t := after (.lfo 0 2) { tinyX 0 0 with lfo := [{ rate := 0x462C4400, phase := 0x3F000000 }] }
    t.getX 2 = 0xB3BBBD2E ∧ t.lfo.map (·.phase) = [0x3F400000] := by decide +kernel
/-- V-LFO-3: a RATE above SR. -/
theorem test_lfo_wraps :
    (after (.lfo 0 2) { tinyX 0 0 with lfo := [{ rate := 0x47813300, phase := 0x3F000000 }] }).lfo.map (·.phase) =
    [0] := by decide +kernel

/-- V-MIX-1, V-MIX-2. -/
theorem test_fadd :
    (after (.fadd 3 1 2) (tinyX 0x3F800000 0x3F000000)).getX 3 = 0x3FC00000 ∧
    (after (.fadd 3 1 2) (tinyX 0x7F61B1E6 0x7F61B1E6)).getX 3 = 0x7F800000 := by decide +kernel
/-- V-MIX-4, V-MIX-5: zeros. -/
theorem test_fadd_zeros :
    (after (.fadd 3 1 2) (tinyX 0 0x80000000)).getX 3 = 0 ∧
    (after (.fadd 3 1 2) (tinyX 0x80000000 0x80000000)).getX 3 = 0x80000000 := by decide +kernel
/-- V-MIX-6. -/
theorem test_fmul : (after (.fmul 3 1 2) (tinyX 0x3DCCCCCD 0x3E4CCCCD)).getX 3 = 0x3CA3D70B := by decide +kernel
/-- V-MIX-6a: an underflow. -/
theorem test_fmul_underflow : (after (.fmul 3 1 2) (tinyX 1 1)).getX 3 = 0 := by decide +kernel
/-- V-MIX-8. -/
theorem test_sclip : (after (.sclip 2 1) (tinyX 0xC0A00000 0)).getX 2 = 0xBF7FFA0D := by decide +kernel
/-- V-ERR-17. -/
theorem test_sclip_nonfinite : statusOf (after (.sclip 2 1) (tinyX 0x7F800000 0)) = 0x2A61 := by decide +kernel

/-! ### Host accesses, by whole steps (P5) -/

/-- P5, rows 21 and 22: a write to 0x4C, a read of ID. -/
theorem test_host_bus_error :
    statusOf (stepped { tiny with host := [.access (.write 0x4C [0, 0, 0, 0]) false] }) = 0x091 ∧
    (stepped { tiny with host := [.access (.read 0x48 4) false] }).reads = [0x43594D01] := by decide +kernel
/-- P5, row 5: a reserved opcode. -/
theorem test_host_illegal_word : statusOf (stepped (tiny.withFetchWord 32 0x14000000)) = 0x511 := by decide +kernel
/-- P5, row 4: write 1 to clear. -/
theorem test_host_clear :
    statusOf (stepped { tiny with
      status := { err := true, busy := false, cause := 6, errop := 8 }
      host := [.access (.write 0x44 [1, 0, 0, 0]) false] }) = 0 := by decide +kernel
/-- R88: a read of X1 that overlaps a command is refused with E_BUSY; the command runs. -/
theorem test_host_busy :
    let t := stepped { tinyX 0x3F800000 0x3F000000 with
      host := [.access (.write 0x40 (lanesOfWord 0xA00C4800)) false, .access (.read 4 4) true] }
    t.getX 3 = 0x3FC00000 ∧ t.reads = [0] ∧ statusOf t = 0x081 ∧ t.host = [] := by decide +kernel

/-! ### Assembly (30_encoding.md R111, R112) -/

/-- V-ENC-7, P4 row b, V-ERR-6, P1 row 10. -/
theorem test_assemble :
    assemble "pset@0 rev.DAMP, x1" = .word 0x0C0040C2 ∧ assemble "fm@4 x4, x5, x1  ; modulated" = .word 0x61114400 ∧
    assemble "pget@5 x2, 1:8" = .word 0x11480048 ∧ assemble "pget@0 x12, dly.WPTR" = .word 0x10300104 := by
  decide +kernel
/-- R112: the pseudo-instructions. -/
theorem test_assemble_pseudo :
    assemble "env.on@0 x5" = .word 0x80140001 ∧ assemble ".word 0x14000000" = .word 0x14000000 ∧
    assemble "; nothing" = .blank := by decide +kernel
/-- R111: a register above 15, an instance above 15, an unknown name, a gate of 2. -/
theorem test_assemble_rejects :
    assemble "lad x16, x1" = .rejected ∧ assemble "lad@16 x1, x1" = .rejected ∧
    assemble "pset svf.FOO, x1" = .rejected ∧ assemble "env x5, 2" = .rejected := by decide +kernel

/-! ### Witnesses: each statement's hypotheses are met together, each clause at a boundary -/

theorem witness_DecodeAfterEncode : (Instr.pset 15 15 15 63).wellFormed = true := by decide

theorem witness_EncodeAfterDecode : decode 0x0FC3C3FF = .ok (.pset 15 15 15 63) := by decide

theorem witness_DecodeFollowsOpcodeMap :
    ("SVF.NOTCH", 0x20000003, 0xFC003FFF) ∈ opcodeMap ∧ ∀ row ∈ opcodeMap, (0xFFFFFFFF : Word) &&& row.2.2 ≠ row.2.1 := by
  decide

/-- A block that adds X1 = 1.0 and X2 = 0.5 next, a read of X1 overlapping it if `withRead`. -/
def adding (withRead : Bool) : State :=
  { tinyX 0x3F800000 0x3F000000 with
    host := .access (.write 0x40 (lanesOfWord 0xA00C4800)) false :: (if withRead then [.access (.read 4 4) true] else []) }

theorem witness_StepRunsDecodedCommand :
    (startCommand 0 (adding false)).status.busy = true ∧ ∃ t, (adding false).host = .access (.write 0x40 (lanesOfWord 0xA00C4800)) false :: [] ∧ overlapping [] = [] ∧
      (adding false).status.busy = false ∧ decode 0xA00C4800 = .ok (.fadd 3 1 2) ∧
      exec (.fadd 3 1 2) { adding false with
        host := [], cmd := 0xA00C4800, status := { (adding false).status with busy := true } } = .next t :=
  ⟨rfl, _, rfl, rfl, rfl, by decide, execFadd_next (by decide +kernel) (by decide +kernel)⟩

theorem witness_OverlappedAccessesServedWhileBusy :
    ∃ t, (adding true).host = .access (.write 0x40 (lanesOfWord 0xA00C4800)) false ::
        ([BusOp.read 4 4].map (fun o => .access o true) ++ []) ∧ overlapping [] = [] ∧
      (adding true).status.busy = false ∧ decode 0xA00C4800 = .ok (.fadd 3 1 2) ∧
      exec (.fadd 3 1 2) (serveAll [.read 4 4] { adding true with
        host := [], cmd := 0xA00C4800, status := { (adding true).status with busy := true } }) = .next t :=
  ⟨_, rfl, rfl, rfl, by decide, execFadd_next (by decide +kernel) (by decide +kernel)⟩

theorem witness_IllegalWordRaisesIllegalOp :
    (tiny.withFetchWord 32 0x14000000).host = .access (.write 0x40 (lanesOfWord 0x14000000)) false :: [] ∧
    overlapping [] = [] ∧ (tiny.withFetchWord 32 0x14000000).status.busy = false ∧
    (∀ row ∈ opcodeMap, (0x14000000 : Word) &&& row.2.2 ≠ row.2.1) ∧
    ∀ row ∈ opcodeMap, (0x00000001 : Word) &&& row.2.2 ≠ row.2.1 := by
  refine ⟨rfl, rfl, rfl, ?_, ?_⟩ <;> decide

theorem witness_BusyAccessRefused : (startCommand 0 tiny).status.busy = true := rfl

theorem witness_WindowMap : tiny.status.busy = false ∧ 0x4C ≤ (0x4C : BitVec 8).toNat := ⟨rfl, by decide⟩

/-- A width of 2, the odd offset 1, the first unmapped offset, ID's offset, three lanes. -/
theorem witness_MalformedAccessIsBusError :
    tiny.status.busy = false ∧ (startCommand 0 tiny).status.busy = true ∧
    (2 : Nat) ≠ 4 ∧ (1 : BitVec 8).toNat % 4 ≠ 0 ∧ 0x4C ≤ (0x4C : BitVec 8).toNat ∧ 0x48 ≤ (0x48 : BitVec 8).toNat ∧
    [(0 : Byte), 0, 0].length ≠ 4 := by
  refine ⟨rfl, rfl, ?_, ?_, ?_, ?_, ?_⟩ <;> decide

theorem witness_StepServesAccess :
    { tiny with host := [.access (.read 0 4) false] }.host = .access (.read 0 4) false :: [] ∧
    commandOf (.read 0 4) = none ∧ (startCommand 0 tiny).status.busy = true ∧
    { tiny with host := [.hardReset, .access (.read 0 4) false] }.host = .hardReset :: [.access (.read 0 4) false] := by
  exact ⟨rfl, rfl, rfl, rfl⟩

theorem witness_StatusFields :
    (0x00000001 : Word).getLsbD 0 = true ∧ (0xFFFFFFFE : Word).getLsbD 0 = false := by decide

theorem witness_FirstErrorKept :
    tiny.status.err = false ∧ (tiny.record .bus 0).status.err = true := by decide +kernel

theorem witness_EveryStepCompletes : tiny.host = [] := rfl

theorem witness_StepKeepsConfiguration : ∃ t, step tiny = .next t := ⟨_, rfl⟩

theorem witness_HardwareResetFromAnyState :
    { adding false with host := [.hardReset] }.host = .hardReset :: [] := rfl

theorem witness_ResetClearsTransientState :
    (∃ u, tiny.svf[0]? = some u) ∧ (∃ u, tiny.lad[0]? = some u) ∧ (∃ u, tiny.dly[0]? = some u ∧ 15 < u.size) ∧
    (∃ u, tiny.cho[0]? = some u) ∧ (∃ u, tiny.fm[1]? = some u) ∧ (∃ u, tiny.ks[0]? = some u ∧ 4095 < u.size) ∧
    (∃ u, tiny.env[0]? = some u) ∧ (∃ u, tiny.lfo[0]? = some u) :=
  ⟨⟨_, rfl⟩, ⟨_, rfl⟩, ⟨_, rfl, by decide⟩, ⟨_, rfl⟩, ⟨_, rfl⟩, ⟨_, rfl, by decide⟩, ⟨_, rfl⟩, ⟨_, rfl⟩⟩

theorem witness_ResetTwiceIsOnce : ∃ t, exec .reset tiny = .next t := ⟨_, rfl⟩

/-- `tiny` with a sounding envelope and the delay buffer `m`, its line 2 words long. -/
def sounding (level : Word) (m : Memory) : State :=
  { tiny with
    env := [{ envReset with level := level, stage := .decay }]
    dly := [{ dlyReset tinyBuild with size := 2, buf := m }] }

theorem witness_ResetForgetsThePast :
    (∃ s' t', keptEqual (sounding 0 [(0, 5)]) (sounding 1 [(1, 7), (9, 3)]) ∧
      exec .reset (sounding 0 [(0, 5)]) = .next s' ∧ exec .reset (sounding 1 [(1, 7), (9, 3)]) = .next t') ∧
    (∃ s' t', (sounding 0 [(1, 5)]).buffersSound ∧ (sounding 0 [(1, 5), (9, 3)]).buffersSound ∧
      agree (sounding 0 [(1, 5)]) (sounding 0 [(1, 5), (9, 3)]) ∧
      step (sounding 0 [(1, 5)]) = .next s' ∧ step (sounding 0 [(1, 5), (9, 3)]) = .next t') := by
  refine ⟨⟨_, _, ⟨rfl, rfl, rfl, rfl, rfl, rfl, rfl, rfl, rfl, rfl, rfl, rfl, rfl, rfl, rfl, rfl, rfl, rfl⟩, rfl, rfl⟩,
    ⟨_, _, by decide +kernel, by decide +kernel, ⟨rfl, rfl, rfl, ?_, ?_⟩, rfl, rfl⟩⟩
  · intro n u v i hu hv hi
    rcases n with _ | n
    · cases hu
      cases hv
      have : i < 2 := hi
      interval_cases i <;> rfl
    · cases hu
  · intro n u v i hu hv _
    cases hu.symm.trans hv
    rfl

theorem witness_NopRecordsOnlyItsWord :
    (tiny.withFetchWord 32 0).host = .access (.write 0x40 [0, 0, 0, 0]) false :: [] ∧ overlapping [] = [] ∧
    (tiny.withFetchWord 32 0).status.busy = false ∧ (0x02000000 : Word).extractLsb' 26 6 = 0 ∧ (0x02000000 : Word) ≠ 0 :=
  ⟨rfl, rfl, rfl, by decide, by decide⟩

/-- 48000.0, and the smallest positive binary32; 0.0, -0.0, +∞ and a NaN are refused. -/
theorem witness_PrepSetsRateAndRederives :
    (isFinite ((tinyX 0x473B8000 1).getX 1) = true ∧ fLt zero ((tinyX 0x473B8000 1).getX 1) = true) ∧
    fLt zero ((tinyX 0x473B8000 1).getX 2) = true ∧ (∃ u, (tinyX 0x473B8000 1).svf[0]? = some u) ∧
    fLt zero ((tinyX 0 0x80000000).getX 1) = false ∧ fLt zero ((tinyX 0 0x80000000).getX 2) = false ∧
    isFinite ((tinyX 0x7F800000 0x7FC00000).getX 1) = false ∧
    isFinite ((tinyX 0x7F800000 0x7FC00000).getX 2) = false := by
  refine ⟨?_, ?_, ⟨_, rfl⟩, ?_, ?_, ?_, ?_⟩ <;> decide +kernel

/-- DLY.DELAY at 1 and at SIZE = 16. -/
theorem witness_PsetStoresTheParameter :
    (4 : Nat) < 11 ∧ 0 < tiny.count 4 ∧ access 4 0 = some .rw ∧ (tinyX 16 1).legal 4 0 0 ((tinyX 16 1).getX 1) = true ∧
    (tinyX 16 1).legal 4 0 0 ((tinyX 16 1).getX 2) = true := by decide +kernel

/-- SVF.FC at -0.0. -/
theorem witness_PsetRederivesSvf :
    (∃ u, (tinyX 0x80000000 0).svf[0]? = some u) ∧ (0 : Nat) < 2 ∧
    (tinyX 0x80000000 0).legal 1 0 0 ((tinyX 0x80000000 0).getX 1) = true := by
  refine ⟨⟨_, rfl⟩, ?_, ?_⟩ <;> decide +kernel

/-- Class 11, SVF instance 1 of 1, SVF index 8, SVF.F, REV.FB = 1.0. -/
theorem witness_PsetChecksInOrder :
    11 ≤ 11 ∧ tiny.count 1 ≤ 1 ∧ (0 < tiny.count 1 ∧ access 1 8 = none) ∧ (0 < tiny.count 1 ∧ access 1 2 = some .ro) ∧
    (0 < tiny.count 3 ∧ access 3 0 = some .rw ∧
      (tinyX 0x3F800000 0).legal 3 0 0 ((tinyX 0x3F800000 0).getX 1) = false) := by decide +kernel

/-- REV.ALEN3, the last index of its class; class 11; SVF instance 1 of 1; REV index 37. -/
theorem witness_PgetReadsTheParameter :
    (3 < 11 ∧ 0 < tiny.count 3 ∧ access 3 36 = some .ro) ∧ 11 ≤ 11 ∧ (1 < 11 ∧ tiny.count 1 ≤ 1) ∧
    (0 < tiny.count 3 ∧ access 3 37 = none) := by decide +kernel

/-- The `refusals` of every sample command: an instance at the count; a valid one with a NaN operand. -/
theorem witness_refusals :
    tiny.svf.length ≤ 1 ∧ 0 < tiny.svf.length ∧
    ∃ r ∈ ([1, 2] : List Reg), isFinite ((tinyX 0 0x7FC00000).getX r) = false :=
  ⟨by decide +kernel, by decide +kernel, 2, by decide, by decide +kernel⟩

theorem witness_SvfStepAndOutput : (∃ u, tiny.svf[0]? = some u) ∧ isFinite (tiny.getX 1) = true :=
  ⟨⟨_, rfl⟩, by decide +kernel⟩

theorem witness_LadderStep : (∃ u, tiny.lad[0]? = some u) ∧ isFinite (tiny.getX 1) = true :=
  ⟨⟨_, rfl⟩, by decide +kernel⟩

theorem witness_LadderStaysBounded :
    ∃ t u', tiny.lad[0]? = some ladReset ∧ isFinite ladReset.fb = true ∧ ladReset.bounded ∧
      exec (.lad 0 2 1) tiny = .next t ∧ t.lad[0]? = some u' := by
  refine ⟨_, _, rfl, by decide +kernel, ?_, execLad_next (u := ladReset) rfl (by decide +kernel), rfl⟩
  constructor <;> intro i <;> fin_cases i <;> constructor <;> decide +kernel

theorem witness_ReverbStep : tiny.buffersSound ∧ isFinite (tiny.getX 1) = true := by
  constructor <;> decide +kernel

theorem witness_DelayLineStep :
    tiny.buffersSound ∧ (∃ u, tiny.dly[0]? = some u) ∧ isFinite (tiny.getX 1) = true :=
  ⟨by decide +kernel, ⟨_, rfl⟩, by decide +kernel⟩

/-- Lengths 1 and `DLY_MAX`, accepted; 0 and `DLY_MAX + 1`, refused. -/
theorem witness_DelayLineResize :
    (∃ u, tiny.dly[0]? = some u) ∧ (1 : Nat) ≤ ((tinyX 1 16).getX 1).toNat ∧
    ((tinyX 1 16).getX 2).toNat ≤ tiny.build.dlyMax ∧ ((tinyX 0 17).getX 1).toNat < 1 ∧
    tiny.build.dlyMax < ((tinyX 0 17).getX 2).toNat := by
  refine ⟨⟨_, rfl⟩, ?_, ?_, ?_, ?_⟩ <;> decide +kernel

theorem witness_ChorusStep :
    tiny.buffersSound ∧ (∃ u, tiny.cho[0]? = some u) ∧ isFinite (tiny.getX 1) = true :=
  ⟨by decide +kernel, ⟨_, rfl⟩, by decide +kernel⟩

/-- BASE at -0.0, DEPTH at the largest binary32, LFOPH just below 1. -/
theorem witness_ChorusDelayClamped :
    nonnegSet 0x80000000 = true ∧ nonnegSet 0x7F7FFFFF = true ∧ unitOpenSet 0x3F7FFFFF = true := by decide +kernel

theorem witness_WavetableSample : tiny.wt[0]? = some { morph := 0 } ∧ isFinite (tiny.getX 1) = true :=
  ⟨rfl, by decide +kernel⟩

theorem witness_WavetableIsPeriodic :
    ∃ t t0, (tinyX 0x3F800000 0).getX 1 = 0x3F800000 ∧ exec (.wt 0 2 1) (tinyX 0x3F800000 0) = .next t ∧
      exec (.wt 0 2 1) ((tinyX 0x3F800000 0).putX 1 0) = .next t0 ∧ 0 < (tinyX 0x3F800000 0).wt.length :=
  ⟨_, _, by decide +kernel, execWt_next (u := wtReset) rfl (by decide +kernel),
    execWt_next (u := wtReset) rfl (by decide +kernel), by decide +kernel⟩

theorem tiny_rom_in_unit (i j : Nat) : absAtMost oneF (wtRom tinyBuild i j) := by
  have h : wtRom tinyBuild i j ∈ ([0, 0x3F800000, 0xBF800000, 0x3F000000, 0xBF000000] : List Word) := by
    rcases i with _ | _ | i <;> rcases j with _ | _ | _ | _ | j <;> simp [wtRom, tinyBuild, zero]
  simp only [List.mem_cons, List.not_mem_nil, or_false] at h
  rcases h with h | h | h | h | h <;> rw [h] <;> constructor <;> decide +kernel

/-- MORPH = 0, and MORPH = 1.0, the last table of two. -/
theorem witness_WavetableMorphEnds :
    buildSound tinyBuild ∧ (∀ i j, absAtMost oneF (wtRom tinyBuild i j)) ∧ isFinite (tiny.getX 1) = true ∧
    (∃ t, exec (.wt 0 2 1) tiny = .next t) ∧ wtReset.morph = 0 ∧ 0x3F800000 = toF (tinyBuild.numTables - 1) :=
  ⟨by decide +kernel, tiny_rom_in_unit, by decide +kernel,
    ⟨_, execWt_next (u := wtReset) rfl (by decide +kernel)⟩, rfl, by decide +kernel⟩

theorem witness_FmSample :
    (∃ u, tiny.fm[1]? = some u) ∧ isFinite (tiny.getX 1) = true ∧ isFinite (tiny.getX 2) = true :=
  ⟨⟨_, rfl⟩, by decide +kernel, by decide +kernel⟩

theorem witness_StringSample :
    tiny.buffersSound ∧ (∃ u, tiny.ks[0]? = some u) ∧ isFinite (tiny.getX 1) = true :=
  ⟨by decide +kernel, ⟨_, rfl⟩, by decide +kernel⟩

/-- SR = 4096, 4097 or 44100 with the frequency `fq` in X1. -/
def tuning (sr fq : Word) : State := { tinyX fq 0 with sr := sr }

/-- The period KSF computes from X1. -/
def period (s : State) : Word := fDiv (s.nan 0) s.sr (s.getX 1)

/-- SR = 4096: 1 Hz gives `KS_MAX`, the current size; 4096 Hz gives 1. -0.0 is refused; so are 8194 Hz (`m` = 0), a quotient
that overflows, and `m` = `KS_MAX + 1`. -/
theorem witness_StringRetune :
    (tuning 0x45800000 0x3F800000).ks[0]? = some (ksReset tinyBuild) ∧
    (isFinite ((tuning 0x45800000 0x3F800000).getX 1) = true ∧ fLt zero ((tuning 0x45800000 0x3F800000).getX 1) = true ∧
      isFinite (period (tuning 0x45800000 0x3F800000)) = true ∧
      roundHalfAway (period (tuning 0x45800000 0x3F800000)) = (ksReset tinyBuild).size ∧
      (ksReset tinyBuild).size = tinyBuild.ksMax) ∧
    roundHalfAway (period (tuning 0x45800000 0x45800000)) = 1 ∧
    fLt zero ((tuning 0x45800000 0x80000000).getX 1) = false ∧
    isFinite (period (tuning 0x472C4400 0x00000001)) = false ∧
    roundHalfAway (period (tuning 0x45800000 0x46000800)) < 1 ∧
    tinyBuild.ksMax < roundHalfAway (period (tuning 0x45800800 0x3F800000)) := by
  refine ⟨rfl, ?_, ?_, ?_, ?_, ?_, ?_⟩ <;> decide +kernel

/-- Both sides of every ramp's end (SR = 4, times of 1 s: a ramp of 0.25). -/
theorem witness_EnvelopeSample :
    tiny.env[0]? = some envReset ∧ envReset.stage = .off ∧
    (envRamp (fun _ => 0) 0x40800000 { envReset with att := 0x3F800000, level := 0x3F400000 } .attack).1 = .decay ∧
    (envRamp (fun _ => 0) 0x40800000 { envReset with att := 0x3F800000, level := 0x3F3FFFFF } .attack).1 = .attack ∧
    (envRamp (fun _ => 0) 0x40800000 { envReset with dec := 0x3F800000, level := 0x3F800000, sus := 0x3F400000 }
      .decay).1 = .sustain ∧
    (envRamp (fun _ => 0) 0x40800000 { envReset with dec := 0x3F800000, level := 0x3F800000, sus := 0x3F3FFFFF }
      .decay).1 = .decay ∧
    (envRamp (fun _ => 0) 0x40800000 { envReset with rel := 0x3F800000, level := 0x3E800000 } .release).1 = .off ∧
    (envRamp (fun _ => 0) 0x40800000 { envReset with rel := 0x3F800000, level := 0x3E800001 } .release).1 =
      .release := by
  refine ⟨rfl, rfl, ?_, ?_, ?_, ?_, ?_, ?_⟩ <;> decide +kernel

theorem witness_LfoSample : ∃ u, tiny.lfo[0]? = some u := ⟨_, rfl⟩

theorem witness_AddAndMultiply :
    isFinite ((tinyX 0x7F7FFFFF 0x80000001).getX 1) = true ∧
    isFinite ((tinyX 0x7F7FFFFF 0x80000001).getX 2) = true := by decide +kernel

theorem witness_SoftClip :
    isFinite ((tinyX 0x80000000 0).getX 1) = true ∧ isZero ((tinyX 0x80000000 0).getX 1) = true := by decide +kernel

theorem witness_ArithmeticRoundsToNearest :
    isFinite 0x7F7FFFFF = true ∧ isFinite 0x00000001 = true ∧ isZero 0x00000001 = false := by decide +kernel

/-- -0.0; the largest binary32 below 2^32; 2^24 - 1. -/
theorem witness_FloorAndRoundAreExact :
    isFinite 0x80000000 = true ∧ fLe zero 0x80000000 = true ∧ 0 ≤ valueOf 0x80000000 ∧ valueOf 0x80000000 < 2 ^ 32 ∧
    isFinite 0x4F7FFFFF = true ∧ 0 ≤ valueOf 0x4F7FFFFF ∧ valueOf 0x4F7FFFFF < 2 ^ 32 ∧ 16777215 < 2 ^ 24 := by
  have h0 : units 0x80000000 = 0 := by decide +kernel
  have h1 : units 0x4F7FFFFF = 4294967040 * 2 ^ 149 := by decide +kernel
  refine ⟨by decide +kernel, by decide +kernel, ?_, ?_, by decide +kernel, ?_, ?_, by decide⟩ <;>
    simp only [valueOf, h0, h1] <;> norm_num

/-- An infinity; 0.75; and -1e-10, whose distance to its floor rounds to 1.0. -/
theorem witness_WrapIntoUnitInterval :
    isFinite 0x7F800000 = false ∧ isFinite 0xAEDBE6FF = true ∧
    fLe oneF (fSub 0 0xAEDBE6FF (floorF 0xAEDBE6FF)) = true ∧ isFinite 0x3F400000 = true ∧
    fLe oneF (fSub 0 0x3F400000 (floorF 0x3F400000)) = false := by decide +kernel

theorem witness_SineAndTanhProperties :
    isZero 0x80000000 = true ∧ isFinite 0x7F7FFFFF = true ∧ isNaN 0xFF800000 = false ∧ fLt zero 0x00000001 = true ∧
    isNaN 0x7FC00000 = true := by decide +kernel

theorem witness_StepKeepsBuffersSound : tiny.buffersSound ∧ ∃ t, step tiny = .next t := ⟨by decide +kernel, _, rfl⟩

/-- `tiny`'s parameters are legal: the table of its instances, by evaluation. -/
theorem tiny_paramsLegal : tiny.paramsLegal := by
  refine ⟨by decide +kernel, ?_⟩
  have table : ∀ u < 11, ∀ n < 2, ∀ p < 5, access u p = some .rw →
      (tiny.getParam u n p).all (tiny.legal u n p) = true := by decide +kernel
  have key : ∀ u < 11, ∀ n < 2, ∀ p < 5, ∀ v, access u p = some .rw → tiny.getParam u n p = some v →
      tiny.legal u n p v = true := by
    intro u hu n hn p hp v ha hv
    simpa [hv] using table u hu n hn p hp ha
  intro u n p v ha hv
  obtain ⟨hu, hp⟩ := access_rw_lt ha
  by_cases hn : n < 2
  · exact key u hu n hn p hp v ha hv
  · by_cases h3 : u = 3
    · subst h3
      interval_cases p <;> exact key 3 (by omega) 0 (by omega) _ (by omega) v ha hv
    · have hnone : ∀ {α : Type} (l : List α), l.length ≤ 2 → l[n]? = none := fun l hl =>
        List.getElem?_eq_none (by omega)
      interval_cases u
      · simp [access] at ha
      all_goals first
        | omega
        | (simp only [State.getParam] at hv; rw [hnone _ (by decide +kernel)] at hv; simp at hv)

theorem witness_StepKeepsParametersLegal :
    buildSound tiny.build ∧ tiny.paramsLegal ∧ ∃ t, step tiny = .next t :=
  ⟨by decide +kernel, tiny_paramsLegal, _, rfl⟩

theorem witness_StepKeepsStatusConsistent : tiny.statusConsistent ∧ ∃ t, step tiny = .next t :=
  ⟨⟨rfl, fun _ => ⟨rfl, rfl⟩, fun h => nomatch h⟩, _, rfl⟩

theorem witness_StepKeepsEnvelopeLevels :
    buildSound tiny.build ∧ tiny.paramsLegal ∧ tiny.levelsInUnit ∧ ∃ t, step tiny = .next t :=
  ⟨by decide +kernel, tiny_paramsLegal, by decide +kernel, _, rfl⟩

theorem witness_LadderStaysBounded_step :
    tiny.paramsLegal ∧ (∀ u ∈ tiny.lad, u.bounded) ∧ ∃ t, step tiny = .next t := by
  refine ⟨tiny_paramsLegal, fun u hu => ?_, _, rfl⟩
  obtain rfl : u = ladReset := List.mem_singleton.mp hu
  constructor <;> intro i <;> fin_cases i <;> constructor <;> decide +kernel

/-- A NaN; an infinity and the largest binary32, a nonzero and a zero; infinities of one sign and of two; zero divisors. -/
theorem witness_ArithmeticOfSpecialOperands :
    isNaN 0x7FC00000 = true ∧ (isInf 0xFF800000 = true ∧ isFinite 0x7F7FFFFF = true ∧ isZero 0x7F7FFFFF = false) ∧
    isZero 0x80000000 = true ∧ (isInf 0x7F800000 = true ∧ (signBit 0x7F800000 ^^ signBit 0xFF800000) = true ∧
    (signBit 0xFF800000 ^^ signBit 0xFF800000) = false) ∧ isFinite 0x00000001 = true ∧ isZero 0x00000001 = false := by
  decide

theorem witness_ComparisonsOrderTheValues :
    isFinite 0x80000000 = true ∧ isFinite 0x7F7FFFFF = true ∧ isNaN 0xFFFFFFFF = true ∧ isNaN 0xFF800000 = false := by decide

theorem witness_ReferenceTablesAreBounded :
    buildSound buildReference ∧ buildReference.wtRom = .reference ∧ 7 < buildReference.numTables ∧
    2047 < buildReference.tableSize := by
  refine ⟨by decide +kernel, rfl, ?_, ?_⟩ <;> decide

/-- An instance of every class; the first reserved class. -/
theorem witness_ParameterNumbersNameFields :
    (∃ u, tiny.svf[0]? = some u) ∧ (∃ u, tiny.lad[0]? = some u) ∧ (∃ u, tiny.dly[0]? = some u) ∧
    (∃ u, tiny.cho[0]? = some u) ∧ (∃ u, tiny.wt[0]? = some u) ∧ (∃ u, tiny.fm[0]? = some u) ∧
    (∃ u, tiny.ks[0]? = some u) ∧ (∃ u, tiny.env[0]? = some u) ∧ (∃ u, tiny.lfo[0]? = some u) ∧ 11 ≤ 11 :=
  ⟨⟨_, rfl⟩, ⟨_, rfl⟩, ⟨_, rfl⟩, ⟨_, rfl⟩, ⟨_, rfl⟩, ⟨_, rfl⟩, ⟨_, rfl⟩, ⟨_, rfl⟩, ⟨_, rfl⟩, le_refl 11⟩

theorem witness_ParameterAccessAndLegalSets : (∃ u, tiny.dly[0]? = some u) ∧ buildSound tiny.build :=
  ⟨⟨_, rfl⟩, by decide +kernel⟩

end Sys2Proof.Tests
end

section
/-!
PROOF. The exact value of a word as a function of its magnitude bits (00_scope.md R7), the classes of words by their magnitude
bits, and the comparisons by value (R11, R12).
-/

namespace Sys2Proof.Machine

/-! ### Classes by magnitude bits -/

theorem magBits_lt (v : Word) : magBits v < 2 ^ 31 := (v.extractLsb' 0 31).isLt

theorem expField_eq (v : Word) : expField v = magBits v / 2 ^ 23 := by
  have := magBits_eq v
  have := fracField_lt v
  omega

theorem fracField_eq (v : Word) : fracField v = magBits v % 2 ^ 23 := by
  have := magBits_eq v
  have := fracField_lt v
  omega

theorem isFinite_iff {v : Word} : isFinite v = true ↔ magBits v < infMag := by
  have := magBits_lt v
  simp only [isFinite, bne_iff_ne, expField_eq, infMag]
  omega

theorem isFinite_eq_false_iff {v : Word} : isFinite v = false ↔ infMag ≤ magBits v := by
  rw [← Bool.not_eq_true, isFinite_iff, Nat.not_lt]

theorem isNaN_iff {v : Word} : isNaN v = true ↔ infMag < magBits v := by
  have := magBits_lt v
  simp only [isNaN, Bool.and_eq_true, beq_iff_eq, bne_iff_ne, expField_eq, fracField_eq, infMag]
  omega

theorem isNaN_eq_false_iff {v : Word} : isNaN v = false ↔ magBits v ≤ infMag := by
  rw [← Bool.not_eq_true, isNaN_iff, Nat.not_lt]

theorem isInf_iff {v : Word} : isInf v = true ↔ magBits v = infMag := by
  have := magBits_lt v
  simp only [isInf, Bool.and_eq_true, beq_iff_eq, expField_eq, fracField_eq, infMag]
  omega

theorem isZero_iff {v : Word} : isZero v = true ↔ magBits v = 0 := by simp [isZero]

theorem isNaN_of_isInf {v : Word} (h : isInf v = true) : isNaN v = false :=
  isNaN_eq_false_iff.mpr (isInf_iff.mp h).le

theorem isFinite_of_isZero {v : Word} (h : isZero v = true) : isFinite v = true := by
  rw [isFinite_iff, isZero_iff.mp h]
  decide

/-! ### Sign and magnitude together -/

theorem toNat_eq_sign_add_magBits (v : Word) : v.toNat = (if signBit v then 2 ^ 31 else 0) + magBits v := by
  have := v.isLt
  simp only [signBit, magBits, BitVec.getLsbD, Nat.testBit_eq_decide_div_mod_eq, BitVec.extractLsb'_toNat,
    Nat.shiftRight_eq_div_pow, decide_eq_true_eq]
  split <;> omega

/-- A word is its sign and its magnitude bits. -/
theorem eq_ofMag (v : Word) : v = ofMag (signBit v) (magBits v) := by
  apply BitVec.eq_of_toNat_eq
  rw [ofMag_toNat (magBits_lt v), toNat_eq_sign_add_magBits]

theorem word_eq_iff {v w : Word} : v = w ↔ signBit v = signBit w ∧ magBits v = magBits w :=
  ⟨fun h => by simp [h], fun ⟨hs, hm⟩ => by rw [eq_ofMag v, eq_ofMag w, hs, hm]⟩

@[simp] theorem signBit_negF (v : Word) : signBit (negF v) = !signBit v := by
  have h : (0x80000000 : Word).getLsbD 31 = true := by decide
  simp only [signBit, negF, BitVec.getLsbD_xor, h, Bool.xor_true]

@[simp] theorem magBits_negF (v : Word) : magBits (negF v) = magBits v := by
  have h : (0x80000000 : Word).extractLsb' 0 31 = 0#31 := by decide
  rw [magBits, negF, BitVec.extractLsb'_xor, h, BitVec.xor_zero, magBits]

@[simp] theorem isFinite_negF (v : Word) : isFinite (negF v) = isFinite v := by
  rw [Bool.eq_iff_iff, isFinite_iff, isFinite_iff, magBits_negF]

@[simp] theorem isNaN_negF (v : Word) : isNaN (negF v) = isNaN v := by
  rw [Bool.eq_iff_iff, isNaN_iff, isNaN_iff, magBits_negF]

@[simp] theorem isInf_negF (v : Word) : isInf (negF v) = isInf v := by
  rw [Bool.eq_iff_iff, isInf_iff, isInf_iff, magBits_negF]

@[simp] theorem isZero_negF (v : Word) : isZero (negF v) = isZero v := by
  rw [Bool.eq_iff_iff, isZero_iff, isZero_iff, magBits_negF]

@[simp] theorem negF_negF (v : Word) : negF (negF v) = v := by simp [word_eq_iff]

/-! ### Exact values -/

/-- The units of 2^-149 that magnitude bits stand for. Infinity's bits stand for 2^128, the binary32 that would follow the
largest one. -/
def magValue (m : Nat) : Nat :=
  if m / 2 ^ 23 = 0 then m % 2 ^ 23 else (2 ^ 23 + m % 2 ^ 23) * 2 ^ (m / 2 ^ 23 - 1)

theorem magUnits_eq (v : Word) : magUnits v = magValue (magBits v) := by
  rw [magUnits, magValue, expField_eq, fracField_eq]

theorem magValue_strictMono : StrictMono magValue := fun m m' h =>
  magnitude_lt (Nat.mod_lt _ (by norm_num)) (by omega) (Nat.mod_lt _ (by norm_num))

@[simp] theorem magValue_zero : magValue 0 = 0 := by simp [magValue]

theorem magValue_infMag : magValue infMag = 2 ^ 128 * 2 ^ 149 := by norm_num [magValue, infMag]

/-- The largest binary32 is one unit in its last place below 2^128. -/
theorem magValue_largest : magValue (infMag - 1) = (2 ^ 128 - 2 ^ 104) * 2 ^ 149 := by norm_num [magValue, infMag]

theorem valueOf_eq (v : Word) : valueOf v = (if signBit v then -1 else 1) * (magValue (magBits v) : ℚ) / 2 ^ 149 := by
  rw [valueOf, units, magUnits_eq]
  split <;> push_cast <;> ring

theorem valueOf_ofMag {neg : Bool} {m : Nat} (h : m < 2 ^ 31) :
    valueOf (ofMag neg m) = (if neg then -1 else 1) * (magValue m : ℚ) / 2 ^ 149 := by
  rw [valueOf_eq, signBit_ofMag h, magBits_ofMag h]

theorem abs_valueOf (v : Word) : |valueOf v| = (magValue (magBits v) : ℚ) / 2 ^ 149 := by
  have h : (0 : ℚ) ≤ (magValue (magBits v) : ℚ) / 2 ^ 149 := by positivity
  rw [valueOf_eq]
  split
  · rw [neg_one_mul, neg_div, abs_neg, abs_of_nonneg h]
  · rw [one_mul, abs_of_nonneg h]

@[simp] theorem valueOf_negF (v : Word) : valueOf (negF v) = -valueOf v := by
  rw [valueOf_eq, valueOf_eq, magBits_negF, signBit_negF]
  cases signBit v <;> simp [neg_div]

theorem abs_valueOf_le_iff {a b : Word} : |valueOf a| ≤ |valueOf b| ↔ magBits a ≤ magBits b := by
  rw [abs_valueOf, abs_valueOf, div_le_div_iff_of_pos_right (by positivity), Nat.cast_le,
    magValue_strictMono.le_iff_le]

theorem valueOf_nonneg {v : Word} (h : signBit v = false) : 0 ≤ valueOf v := by
  rw [valueOf_eq, h]
  simp only [Bool.false_eq_true, if_false, one_mul]
  positivity

theorem valueOf_nonpos {v : Word} (h : signBit v = true) : valueOf v ≤ 0 := by
  have := valueOf_nonneg (v := negF v) (by simp [h])
  rw [valueOf_negF] at this
  linarith

theorem valueOf_lt_iff {a b : Word} : valueOf a < valueOf b ↔ orderKey a < orderKey b := by
  rw [valueOf, valueOf, div_lt_div_iff_of_pos_right (by positivity), Int.cast_lt, orderKey_lt_iff]

theorem valueOf_le_iff {a b : Word} : valueOf a ≤ valueOf b ↔ orderKey a ≤ orderKey b := by
  rw [← not_lt, valueOf_lt_iff, not_lt]

theorem valueOf_eq_iff {a b : Word} : valueOf a = valueOf b ↔ orderKey a = orderKey b := by
  rw [le_antisymm_iff, le_antisymm_iff, valueOf_le_iff, valueOf_le_iff]

theorem valueOf_eq_zero_iff {v : Word} : valueOf v = 0 ↔ isZero v = true := by
  rw [← abs_eq_zero, abs_valueOf, div_eq_zero_iff, isZero_iff, Nat.cast_eq_zero]
  have h : magValue (magBits v) = magValue 0 ↔ magBits v = 0 := magValue_strictMono.injective.eq_iff
  rw [magValue_zero] at h
  simp [h]

/-! ### Comparisons (R11) -/

theorem fLt_iff {a b : Word} (ha : isNaN a = false) (hb : isNaN b = false) :
    fLt a b = true ↔ valueOf a < valueOf b := by simp [fLt, ha, hb, valueOf_lt_iff]

theorem fLe_iff {a b : Word} (ha : isNaN a = false) (hb : isNaN b = false) :
    fLe a b = true ↔ valueOf a ≤ valueOf b := by simp [fLe, ha, hb, valueOf_le_iff]

theorem ieeeEq_iff {a b : Word} (ha : isNaN a = false) (hb : isNaN b = false) :
    ieeeEq a b ↔ valueOf a = valueOf b := by simp [ieeeEq, ha, hb, valueOf_eq_iff]

theorem fLt_eq_not_fLe {a b : Word} (ha : isNaN a = false) (hb : isNaN b = false) : fLt a b = !fLe b a := by
  rw [Bool.eq_iff_iff, Bool.not_eq_true', ← Bool.not_eq_true, fLt_iff ha hb, fLe_iff hb ha, not_le]

theorem isNaN_of_fLe_left {a b : Word} (h : fLe a b = true) : isNaN a = false := by
  simp only [fLe, Bool.and_eq_true, Bool.not_eq_true'] at h
  obtain ⟨⟨ha, -⟩, -⟩ := h
  exact ha

/-- `-m ≤ v ≤ m` is a bound on the magnitude bits. -/
theorem absAtMost_iff {m v : Word} (hm : signBit m = false) (hmn : isNaN m = false) :
    absAtMost m v ↔ magBits v ≤ magBits m := by
  have hle := isNaN_eq_false_iff.mp hmn
  constructor
  · intro ⟨hl, hu⟩
    have hvn := isNaN_of_fLe_left hu
    rw [fLe_iff (by simp [hmn]) hvn, valueOf_negF] at hl
    rw [fLe_iff hvn hmn] at hu
    rw [← abs_valueOf_le_iff, abs_of_nonneg (valueOf_nonneg hm)]
    exact abs_le.mpr ⟨hl, hu⟩
  · intro h
    have hvn : isNaN v = false := isNaN_eq_false_iff.mpr (by omega)
    rw [← abs_valueOf_le_iff, abs_of_nonneg (valueOf_nonneg hm)] at h
    obtain ⟨hl, hu⟩ := abs_le.mp h
    exact ⟨by rw [fLe_iff (by simp [hmn]) hvn, valueOf_negF]; exact hl, (fLe_iff hvn hmn).mpr hu⟩

theorem absAtMost_of_isZero {m v : Word} (hm : signBit m = false) (hmn : isNaN m = false) (hv : isZero v = true) :
    absAtMost m v := by
  rw [absAtMost_iff hm hmn, isZero_iff.mp hv]
  exact Nat.zero_le _

/-! ### The words compared with most -/

theorem valueOf_zero : valueOf 0x00000000 = 0 := valueOf_eq_zero_iff.mpr (by decide)

theorem valueOf_one : valueOf 0x3F800000 = 1 := by
  have hs : signBit 0x3F800000 = false := by decide
  have hm : magBits 0x3F800000 = 127 * 2 ^ 23 := by decide
  have hv : magValue (127 * 2 ^ 23) = 2 ^ 149 := by norm_num [magValue]
  rw [valueOf_eq, hs, hm, hv]
  norm_num

/-! ### The layout (R7), the infinities, and the selections (R12) -/

/-- The value of a word by its sign, exponent and fraction. -/
theorem valueOf_layout (v : Word) :
    valueOf v = (if signBit v then -1 else 1) *
      (if expField v = 0 then (fracField v : ℚ) / 2 ^ 149
        else ((2 : ℚ) ^ 23 + fracField v) * 2 ^ expField v / 2 ^ 150) := by
  rw [valueOf_eq, ← magUnits_eq, mul_div_assoc]
  congr 1
  unfold magUnits
  split
  · rfl
  · next h =>
    obtain ⟨e, he⟩ := Nat.exists_eq_succ_of_ne_zero h
    rw [he, Nat.succ_sub_one, Nat.cast_mul, Nat.cast_add, Nat.cast_pow, Nat.cast_pow, Nat.cast_ofNat,
      pow_succ (2 : ℚ) e, show (150 : Nat) = 149 + 1 from rfl, pow_succ (2 : ℚ) 149, ← mul_assoc,
      mul_div_mul_right _ _ two_ne_zero]

theorem fLe_infF {a : Word} (ha : isNaN a = false) : fLe a 0x7F800000 = true ∧ fLe 0xFF800000 a = true := by
  have h : absAtMost 0x7F800000 a := (absAtMost_iff (by decide) (by decide)).mpr (isNaN_eq_false_iff.mp ha)
  exact ⟨h.2, h.1⟩

/-- A finite value lies strictly between the infinities. -/
theorem fLt_infF {a : Word} (ha : isFinite a = true) : fLt a 0x7F800000 = true ∧ fLt 0xFF800000 a = true := by
  have hn := isNaN_of_isFinite ha
  have hmag : |valueOf a| < |valueOf 0x7F800000| :=
    lt_of_not_ge fun h => (isFinite_iff.mp ha).not_ge (abs_valueOf_le_iff.mp h)
  rw [abs_of_nonneg (valueOf_nonneg (v := 0x7F800000) (by decide)), abs_lt, ← valueOf_negF] at hmag
  exact ⟨(fLt_iff hn (by decide)).mpr hmag.2, (fLt_iff (by decide) hn).mpr hmag.1⟩

theorem valueOf_minF {a b : Word} (ha : isNaN a = false) (hb : isNaN b = false) :
    valueOf (minF a b) = min (valueOf a) (valueOf b) := by
  unfold minF
  split
  · next h => rw [min_eq_right ((fLt_iff hb ha).mp h).le]
  · next h => rw [min_eq_left (not_lt.mp fun hlt => h ((fLt_iff hb ha).mpr hlt))]

theorem valueOf_maxF {a b : Word} (ha : isNaN a = false) (hb : isNaN b = false) :
    valueOf (maxF a b) = max (valueOf a) (valueOf b) := by
  unfold maxF
  split
  · next h => rw [max_eq_right ((fLt_iff ha hb).mp h).le]
  · next h => rw [max_eq_left (not_lt.mp fun hlt => h ((fLt_iff ha hb).mpr hlt))]

theorem comparisons_of_isNaN {a b : Word} (h : isNaN a = true ∨ isNaN b = true) :
    fLt a b = false ∧ fLe a b = false ∧ ¬ ieeeEq a b := by
  rcases h with h | h <;> simp [fLt, fLe, ieeeEq, h]

/-- Settles O57: the comparison key orders the exact values. -/
theorem comparisonsOrderTheValues : Obligations.ComparisonsOrderTheValues := by
  intro a b
  refine ⟨?_, ?_, fun _ => valueOf_layout a, fun ha hb => ?_, comparisons_of_isNaN, fLe_infF, fLt_infF,
    fun ha hb => ⟨fLt_eq_not_fLe ha hb, ?_⟩, rfl, rfl, by decide, by decide⟩
  · simp [isFinite, expField]
  · simp [isNaN, expField, fracField]
  · have ha := isNaN_of_isFinite ha
    have hb := isNaN_of_isFinite hb
    exact ⟨fLt_iff ha hb, fLe_iff ha hb, ieeeEq_iff ha hb, valueOf_minF ha hb, valueOf_maxF ha hb⟩
  · rw [ieeeEq_iff ha hb, fLe_iff ha hb, fLe_iff hb ha, le_antisymm_iff]

end Sys2Proof.Machine
end

section
/-!
PROOF. Rounding (00_scope.md R8). `roundMag` is the rounding before its overflow to infinity. One theorem ties it to its
algorithm: among ALL magnitudes, infinity's 2^128 included, it is the nearest, the even one on a tie (`nearestMag_roundMag`).
Where it overflows, that it is exact on a binary32 value, its bounds and the four operations follow from that alone.
-/

namespace Sys2Proof.Machine

/-! ### Magnitudes on a grid of 2^s units -/

/-- A 24-bit significand `n` on the grid of `2^s` units has the encoding `s * 2^23 + n`; a carry to `n = 2^24` included. -/
theorem magValue_shifted {s n : Nat} (hn : n ≤ 2 ^ 24) (hs : s = 0 ∨ 2 ^ 23 ≤ n) :
    magValue (s * 2 ^ 23 + n) = n * 2 ^ s := by
  rcases Nat.lt_or_ge n (2 ^ 23) with h | h
  · obtain rfl : s = 0 := by omega
    simp only [magValue]
    rw [if_pos (by omega)]
    omega
  · rcases Nat.eq_or_lt_of_le hn with rfl | hlt
    · simp only [magValue]
      rw [if_neg (by omega), show (s * 2 ^ 23 + 2 ^ 24) % 2 ^ 23 = 0 by omega,
        show (s * 2 ^ 23 + 2 ^ 24) / 2 ^ 23 - 1 = s + 1 by omega]
      ring
    · simp only [magValue]
      rw [if_neg (by omega), show 2 ^ 23 + (s * 2 ^ 23 + n) % 2 ^ 23 = n by omega,
        show (s * 2 ^ 23 + n) / 2 ^ 23 - 1 = s by omega]

/-- A magnitude of at least `2^(s+23)` units lies on the grid of `2^s` units. -/
theorem dvd_magValue {s m : Nat} (h : s = 0 ∨ 2 ^ (s + 23) ≤ magValue m) : 2 ^ s ∣ magValue m := by
  rcases h with rfl | h
  · simp
  simp only [magValue] at h ⊢
  have hf : m % 2 ^ 23 < 2 ^ 23 := Nat.mod_lt _ (by norm_num)
  split at h
  · have : 2 ^ 23 ≤ 2 ^ (s + 23) := Nat.pow_le_pow_right (by norm_num) (by omega)
    omega
  · next he =>
    rw [if_neg he]
    refine Dvd.dvd.mul_left (pow_dvd_pow 2 ?_) _
    by_contra hc
    have h1 : 2 ^ (m / 2 ^ 23 - 1) * 2 ≤ 2 ^ s := by
      rw [← pow_succ]
      exact Nat.pow_le_pow_right (by norm_num) (by omega)
    have h2 : 2 ^ (s + 23) = 2 ^ s * 2 ^ 23 := pow_add _ _ _
    nlinarith [Nat.one_le_two_pow (n := m / 2 ^ 23 - 1)]

/-- Every significand below 2^24 on every grid is a magnitude. -/
theorem exists_magValue {k e : Nat} (hk : k < 2 ^ 24) : ∃ m, magValue m = k * 2 ^ e := by
  induction e generalizing k with
  | zero => exact ⟨0 * 2 ^ 23 + k, magValue_shifted hk.le (.inl rfl)⟩
  | succ e ih =>
    rcases Nat.lt_or_ge k (2 ^ 23) with h | h
    · obtain ⟨m, hm⟩ := ih (k := 2 * k) (by omega)
      exact ⟨m, by rw [hm]; ring⟩
    · exact ⟨(e + 1) * 2 ^ 23 + k, magValue_shifted hk.le (.inr h)⟩

/-! ### Rounding to an integer -/

/-- `roundNearest` is at most a half off, and even when it is off by a half. -/
theorem roundNearest_error {num den : Nat} (hd : 0 < den) :
    |(roundNearest num den : ℚ) - num / den| ≤ 1 / 2 ∧
    (|(roundNearest num den : ℚ) - num / den| = 1 / 2 → roundNearest num den % 2 = 0) := by
  have hdq : (0 : ℚ) < den := by exact_mod_cast hd
  obtain ⟨f, hf⟩ : ∃ f : ℚ, f = (num % den : Nat) / den := ⟨_, rfl⟩
  have hy : (num : ℚ) / den = (num / den : Nat) + f := by
    rw [hf, div_eq_iff hdq.ne', add_mul, div_mul_cancel₀ _ hdq.ne']
    exact_mod_cast (Nat.div_add_mod' num den).symm
  have hf0 : 0 ≤ f := by rw [hf]; positivity
  have hf1 : f < 1 := by
    rw [hf, div_lt_one hdq]
    exact_mod_cast Nat.mod_lt num hd
  have hup : roundsUp num den = true ↔ 1 < 2 * f ∨ (2 * f = 1 ∧ num / den % 2 = 1) := by
    have hlt : den < 2 * (num % den) ↔ 1 < 2 * f := by
      rw [hf, ← mul_div_assoc, one_lt_div hdq]
      exact_mod_cast Iff.rfl
    have heq : 2 * (num % den) = den ↔ 2 * f = 1 := by
      rw [hf, ← mul_div_assoc, div_eq_one_iff_eq hdq.ne']
      exact_mod_cast Iff.rfl
    simp [roundsUp, hlt, heq]
  rw [hy]
  by_cases h : roundsUp num den = true
  · have hn : |((num / den + 1 : Nat) : ℚ) - ((num / den : Nat) + f)| = 1 - f := by
      push_cast
      rw [abs_of_nonneg (by linarith)]
      ring
    rw [roundNearest, if_pos h, hn]
    rcases hup.mp h with h | ⟨h, hodd⟩
    · exact ⟨by linarith, fun he => by linarith⟩
    · exact ⟨by linarith, fun _ => by omega⟩
  · have hn : |((num / den : Nat) : ℚ) - ((num / den : Nat) + f)| = f := by
      rw [sub_add_cancel_left, abs_neg, abs_of_nonneg hf0]
    rw [roundNearest, if_neg h, hn]
    rw [hup] at h
    push Not at h
    obtain ⟨hle, heven⟩ := h
    exact ⟨by linarith, fun he => by have := heven (by linarith); omega⟩

/-- An integer at most a half off is nearest to `y`; another is as near only if it is off by a half. -/
theorem abs_sub_le_of_error {n k : Nat} {y : ℚ} (h : |(n : ℚ) - y| ≤ 1 / 2) :
    |(n : ℚ) - y| ≤ |(k : ℚ) - y| ∧ (|(n : ℚ) - y| = |(k : ℚ) - y| → k ≠ n → |(n : ℚ) - y| = 1 / 2) := by
  by_cases hk : k = n
  · subst hk
    exact ⟨le_refl _, fun _ hne => absurd rfl hne⟩
  · have h1 : (1 : ℚ) ≤ |(n : ℚ) - k| := by
      have : (1 : Int) ≤ |(n : Int) - k| := Int.one_le_abs (by omega)
      exact_mod_cast this
    have h2 : |(n : ℚ) - k| ≤ |(n : ℚ) - y| + |(k : ℚ) - y| := by
      rw [abs_sub_comm (k : ℚ) y]
      exact abs_sub_le _ _ _
    exact ⟨by linarith, fun he _ => by linarith⟩

/-! ### Rounding to a magnitude -/

/-- The shift `roundUnits` takes: the grid on which the quotient has 24 significant bits. -/
def roundShift (num den : Nat) : Nat := if num / den < 2 ^ 24 then 0 else Nat.log2 (num / den) - 23

/-- `roundUnits` before its overflow to infinity. -/
def roundMag (num den : Nat) : Nat :=
  roundShift num den * 2 ^ 23 + roundNearest num (den * 2 ^ roundShift num den)

theorem roundUnits_eq (num den : Nat) : roundUnits num den = min (roundMag num den) infMag := rfl

/-- On the grid of `roundShift` the quotient is below 2^24, and at least 2^23 unless the grid is that of single units. -/
theorem roundShift_spec {num den : Nat} (hd : 0 < den) :
    num < 2 ^ 24 * (den * 2 ^ roundShift num den) ∧
    (roundShift num den = 0 ∨ 2 ^ 23 * (den * 2 ^ roundShift num den) ≤ num) := by
  unfold roundShift
  split
  · next h =>
    rw [pow_zero, mul_one]
    exact ⟨(Nat.div_lt_iff_lt_mul hd).mp h, .inl rfl⟩
  · next h =>
    have hne : num / den ≠ 0 := fun h0 => h (by rw [h0]; positivity)
    have hlog : 24 ≤ Nat.log2 (num / den) := (Nat.le_log2 hne).mpr (Nat.le_of_not_lt h)
    have hlo : 2 ^ Nat.log2 (num / den) ≤ num / den := Nat.log2_self_le hne
    have hhi : num / den < 2 ^ (Nat.log2 (num / den) + 1) := Nat.lt_log2_self
    obtain ⟨s, hs⟩ : ∃ s, Nat.log2 (num / den) = 23 + s := ⟨_, (Nat.add_sub_cancel' (by omega)).symm⟩
    rw [hs] at hlo hhi ⊢
    rw [Nat.add_sub_cancel_left]
    rw [Nat.div_lt_iff_lt_mul hd, show 23 + s + 1 = 24 + s by omega, pow_add] at hhi
    rw [Nat.le_div_iff_mul_le hd, pow_add] at hlo
    exact ⟨hhi.trans_eq (by ring), .inr (le_trans (by ring_nf; rfl) hlo)⟩

/-- `m` is the magnitude nearest to `x` units among all magnitudes, the even one on a tie. -/
def nearestMag (x : ℚ) (m : Nat) : Prop :=
  ∀ c, |(magValue m : ℚ) - x| ≤ |(magValue c : ℚ) - x| ∧
    (|(magValue m : ℚ) - x| = |(magValue c : ℚ) - x| → c ≠ m → m % 2 = 0)

/-- The value of `roundMag`: an integer on the grid of `roundShift`. -/
theorem magValue_roundMag {num den : Nat} (hd : 0 < den) :
    magValue (roundMag num den) =
      roundNearest num (den * 2 ^ roundShift num den) * 2 ^ roundShift num den := by
  obtain ⟨hlt, hlow⟩ := roundShift_spec (num := num) hd
  have hD : 0 < den * 2 ^ roundShift num den := by positivity
  have h1 := (Nat.div_lt_iff_lt_mul hD).mpr hlt
  have h2 := hlow.imp_right (Nat.le_div_iff_mul_le hD).mpr
  apply magValue_shifted <;> unfold roundNearest <;> split <;> omega

/-- Distances from a quotient, and on the grid of `2^s` units. -/
theorem abs_grid_sub {den : Nat} (hd : 0 < den) (num s k : Nat) :
    |((k * 2 ^ s : Nat) : ℚ) - num / den| = 2 ^ s * |(k : ℚ) - num / (den * 2 ^ s : Nat)| := by
  have hp : (0 : ℚ) < 2 ^ s := by positivity
  have hdq : (den : ℚ) ≠ 0 := by exact_mod_cast hd.ne'
  rw [← abs_of_pos hp, ← abs_mul]
  congr 1
  push_cast
  field_simp

theorem abs_sub_lt_of_lt_of_le {a b x : ℚ} (hab : a < b) (hbx : b ≤ x) : |b - x| < |a - x| := by
  rw [abs_of_nonpos (by linarith), abs_of_neg (by linarith)]
  linarith

/-- What the rounding algorithm does. A magnitude off its grid is below the grid's least 24-bit significand, and so is farther
from the quotient than that. -/
theorem nearestMag_roundMag {num den : Nat} (hd : 0 < den) : nearestMag (num / den) (roundMag num den) := by
  have hlow := (roundShift_spec (num := num) hd).2
  have hval := magValue_roundMag (num := num) hd
  have hparity : roundMag num den % 2 = roundNearest num (den * 2 ^ roundShift num den) % 2 := by
    unfold roundMag
    omega
  generalize roundShift num den = s at *
  obtain ⟨herr, htie⟩ := roundNearest_error (num := num) (den := den * 2 ^ s) (by positivity)
  have hgrid : ∀ k : Nat, |(magValue (roundMag num den) : ℚ) - num / den| ≤
      |((k * 2 ^ s : Nat) : ℚ) - num / den| := by
    intro k
    rw [hval, abs_grid_sub hd, abs_grid_sub hd]
    exact mul_le_mul_of_nonneg_left (abs_sub_le_of_error herr).1 (by positivity)
  intro c
  by_cases hc : s = 0 ∨ 2 ^ (s + 23) ≤ magValue c
  · obtain ⟨k, hk⟩ := dvd_magValue hc
    rw [mul_comm] at hk
    refine ⟨hk ▸ hgrid k, fun he hne => hparity.trans (htie ?_)⟩
    rw [hk, hval, abs_grid_sub hd, abs_grid_sub hd] at he
    refine (abs_sub_le_of_error (k := k) herr).2 (mul_left_cancel₀ (by positivity) he) fun hkn => hne ?_
    exact magValue_strictMono.injective (by rw [hk, hval, hkn])
  · push Not at hc
    obtain ⟨hs, hc⟩ := hc
    have hx : ((2 ^ 23 * 2 ^ s : Nat) : ℚ) ≤ num / den := by
      rw [le_div_iff₀ (by exact_mod_cast hd)]
      have := hlow.resolve_left hs
      exact_mod_cast (show 2 ^ 23 * 2 ^ s * den = 2 ^ 23 * (den * 2 ^ s) by ring) ▸ this
    have hcx : (magValue c : ℚ) < (2 ^ 23 * 2 ^ s : Nat) := by
      rw [pow_add, mul_comm] at hc
      exact_mod_cast hc
    have hfar := (hgrid (2 ^ 23)).trans_lt (abs_sub_lt_of_lt_of_le hcx hx)
    exact ⟨hfar.le, fun he => absurd he hfar.ne⟩

/-! ### Overflow -/

/-- `overflowBound` lies halfway between the largest binary32 and 2^128, whose magnitude bits are even. -/
theorem overflowBound_eq :
    (magValue infMag : ℚ) + magValue (infMag - 1) = 2 * (overflowBound * 2 ^ 149) := by
  rw [magValue_infMag, magValue_largest, overflowBound]
  norm_num

/-- Rounding to nearest gives a finite magnitude exactly below `overflowBound`. -/
theorem nearestMag_lt_infMag_iff {x : ℚ} {m : Nat} (h : nearestMag x m) :
    m < infMag ↔ x < overflowBound * 2 ^ 149 := by
  have hmid := overflowBound_eq
  have hgap : (magValue (infMag - 1) : ℚ) < magValue infMag := by
    exact_mod_cast magValue_strictMono (show infMag - 1 < infMag by decide)
  obtain ⟨hinf, htie⟩ := h infMag
  obtain ⟨hlargest, -⟩ := h (infMag - 1)
  constructor
  · intro hm
    have hle : (magValue m : ℚ) ≤ magValue (infMag - 1) := by
      exact_mod_cast magValue_strictMono.monotone (Nat.le_sub_one_of_lt hm)
    by_contra hx
    rw [abs_of_nonpos (by linarith : (magValue m : ℚ) - x ≤ 0)] at hinf htie
    have hfar : |(magValue infMag : ℚ) - x| ≤ x - magValue (infMag - 1) := abs_le.mpr ⟨by linarith, by linarith⟩
    have heq : (magValue m : ℚ) = magValue (infMag - 1) := by linarith
    have hm' : m = infMag - 1 := magValue_strictMono.injective (by exact_mod_cast heq)
    have := htie (by linarith) hm.ne'
    rw [hm'] at this
    exact absurd this (by decide)
  · intro hx
    by_contra hm
    have hge : (magValue infMag : ℚ) ≤ magValue m := by
      exact_mod_cast magValue_strictMono.monotone (Nat.le_of_not_lt hm)
    rw [abs_of_nonneg (by linarith : 0 ≤ (magValue m : ℚ) - x)] at hlargest
    have hnear : |(magValue (infMag - 1) : ℚ) - x| < magValue infMag - x := abs_lt.mpr ⟨by linarith, by linarith⟩
    linarith

/-- The largest binary32 is below `overflowBound`. -/
theorem abs_valueOf_lt_overflowBound {v : Word} (h : isFinite v = true) : |valueOf v| < overflowBound := by
  have hle : (magValue (magBits v) : ℚ) ≤ magValue (infMag - 1) := by
    exact_mod_cast magValue_strictMono.monotone (Nat.le_sub_one_of_lt (isFinite_iff.mp h))
  have hgap : (magValue (infMag - 1) : ℚ) < magValue infMag := by
    exact_mod_cast magValue_strictMono (show infMag - 1 < infMag by decide)
  rw [abs_valueOf, div_lt_iff₀ (by positivity)]
  linarith [overflowBound_eq]

/-! ### Rounded words -/

/-- `r` is `q` rounded: never a NaN, finite exactly below `overflowBound` and then nearest, with the sign of `q`; a zero `q` has
the sign `negZero`. -/
def roundsTo (q : ℚ) (negZero : Bool) (r : Word) : Prop :=
  isNaN r = false ∧ (isFinite r = true ↔ |q| < overflowBound) ∧ (isFinite r = true → nearest q r) ∧
  (q < 0 → signBit r = true) ∧ (0 < q → signBit r = false) ∧ (q = 0 → signBit r = negZero)

/-- The lowest bit of a word is that of its magnitude bits. -/
theorem getLsbD_zero_eq_false {v : Word} (h : magBits v % 2 = 0) : v.getLsbD 0 = false := by
  have := toNat_eq_sign_add_magBits v
  have heven : v.toNat % 2 = 0 := by split at this <;> omega
  simp [BitVec.getLsbD, Nat.testBit_zero, heven]

/-- Words of one magnitude have the same value or opposite values. -/
theorem valueOf_eq_or_neg {v w : Word} (h : magBits v = magBits w) : valueOf v = valueOf w ∨ valueOf v = -valueOf w :=
  abs_eq_abs.mp (by rw [abs_valueOf, abs_valueOf, h])

/-- A word and a rational of one sign are as far apart as their magnitudes. -/
theorem abs_valueOf_sub {q : ℚ} {r : Word} (hneg : signBit r = true → q ≤ 0) (hpos : signBit r = false → 0 ≤ q) :
    |valueOf r - q| = |(|valueOf r| - |q|)| := by
  rcases hs : signBit r with _ | _
  · rw [abs_of_nonneg (valueOf_nonneg hs), abs_of_nonneg (hpos hs)]
  · rw [abs_of_nonpos (valueOf_nonpos hs), abs_of_nonpos (hneg hs), ← abs_neg (valueOf r - q)]
    congr 1
    ring

/-- The nearest magnitude under the sign of `q` is nearest to `q` among the words of both signs. -/
theorem nearest_of_nearestMag {q : ℚ} {r : Word} (hn : nearestMag (|q| * 2 ^ 149) (magBits r))
    (hneg : signBit r = true → q ≤ 0) (hpos : signBit r = false → 0 ≤ q) : nearest q r := by
  have hp : (0 : ℚ) < 2 ^ 149 := by positivity
  have hmag : ∀ c : Word, |(magValue (magBits c) : ℚ) - |q| * 2 ^ 149| = |(|valueOf c| - |q|)| * 2 ^ 149 := by
    intro c
    have : (magValue (magBits c) : ℚ) - |q| * 2 ^ 149 = (magValue (magBits c) / 2 ^ 149 - |q|) * 2 ^ 149 := by
      rw [sub_mul, div_mul_cancel₀ _ hp.ne']
    rw [this, abs_mul, abs_of_pos hp, abs_valueOf]
  have hr := abs_valueOf_sub hneg hpos
  have hnearest : ∀ c : Word, |valueOf r - q| ≤ |(|valueOf c| - |q|)| := by
    intro c
    have := (hn (magBits c)).1
    rw [hmag, hmag] at this
    exact hr ▸ le_of_mul_le_mul_right this hp
  intro c _
  have hc : |(|valueOf c| - |q|)| ≤ |valueOf c - q| := abs_abs_sub_abs_le _ _
  refine ⟨(hnearest c).trans hc, fun he hne => ?_⟩
  by_cases hm : magBits c = magBits r
  · have hopp := (valueOf_eq_or_neg hm).resolve_left hne
    have hq : q = 0 := by
      rw [hopp] at he hne
      rcases abs_eq_abs.mp he with h | h
      · exact absurd (by linarith) hne
      · linarith
    have h0 := hnearest 0x00000000
    rw [hq, valueOf_zero] at h0
    have : valueOf r = 0 := by simpa using h0
    rw [hopp, this, neg_zero] at hne
    exact absurd rfl hne
  · refine getLsbD_zero_eq_false ((hn (magBits c)).2 ?_ hm)
    rw [hmag, hmag, ← hr, le_antisymm (hnearest c) (he ▸ hc)]

section
variable {q : ℚ} {negZero : Bool} {r m : Word} (h : roundsTo q negZero r)
include h

/-- A result bounded by a binary32 does not overflow, and rounding keeps the bound. -/
theorem roundsTo.abs_valueOf_le (hm : isFinite m = true) (hq : |q| ≤ valueOf m) :
    isFinite r = true ∧ |valueOf r| ≤ valueOf m := by
  obtain ⟨-, hfin, hnear, -⟩ := h
  have hf : isFinite r = true :=
    hfin.mpr ((hq.trans (le_abs_self _)).trans_lt (abs_valueOf_lt_overflowBound hm))
  have hup := (hnear hf m hm).1
  have hdown := (hnear hf (negF m) (by simpa using hm)).1
  rw [valueOf_negF] at hdown
  obtain ⟨hl, hu⟩ := abs_le.mp hq
  rw [abs_of_nonneg (by linarith : 0 ≤ valueOf m - q)] at hup
  rw [abs_of_nonpos (by linarith : -valueOf m - q ≤ 0)] at hdown
  exact ⟨hf, abs_le.mpr ⟨by linarith [(abs_le.mp hdown).1], by linarith [(abs_le.mp hup).2]⟩⟩

/-- Rounding keeps the sign of what does not overflow. -/
theorem roundsTo.nonneg (hf : isFinite r = true) (hq : 0 ≤ q) : 0 ≤ valueOf r := by
  have := (h.2.2.1 hf 0x00000000 (by decide)).1
  rw [valueOf_zero, zero_sub, abs_neg, abs_of_nonneg hq] at this
  linarith [(abs_le.mp this).1]

/-- Rounding is exact on a binary32 value. -/
theorem roundsTo.exact (hm : isFinite m = true) (hq : valueOf m = q) : isFinite r = true ∧ valueOf r = q := by
  obtain ⟨-, hfin, hnear, -⟩ := h
  have hf : isFinite r = true := hfin.mpr (hq ▸ abs_valueOf_lt_overflowBound hm)
  have := (hnear hf m hm).1
  rw [hq, sub_self, abs_zero, abs_nonpos_iff, sub_eq_zero] at this
  exact ⟨hf, this⟩

end

/-- The word of a sign and a rounded magnitude is the signed quotient rounded. -/
theorem roundsTo_ofMag {q : ℚ} {neg negZero : Bool} {num den : Nat} (hd : 0 < den)
    (hq : q = (if neg then -1 else 1) * ((num : ℚ) / den / 2 ^ 149)) (hz : num = 0 → neg = negZero) :
    roundsTo q negZero (ofMag neg (roundUnits num den)) := by
  have hp : (0 : ℚ) < 2 ^ 149 := by positivity
  have hdq : (0 : ℚ) < den := by exact_mod_cast hd
  have hx : 0 ≤ (num : ℚ) / den / 2 ^ 149 := by positivity
  have habs : |q| * 2 ^ 149 = num / den := by
    rw [hq, abs_mul, abs_of_nonneg hx, mul_assoc, div_mul_cancel₀ _ hp.ne']
    split <;> simp
  have hn := nearestMag_roundMag (num := num) hd
  have hlt : roundUnits num den < 2 ^ 31 := (Nat.min_le_right _ _).trans_lt (by decide)
  have hfin : isFinite (ofMag neg (roundUnits num den)) = true ↔ roundMag num den < infMag := by
    rw [isFinite_iff, magBits_ofMag hlt, roundUnits_eq, min_lt_iff]
    simp
  have hneg : neg = true → q ≤ 0 := fun h => by rw [hq, if_pos h]; linarith
  have hpos : neg = false → 0 ≤ q := fun h => by rw [hq, h, if_neg (by simp)]; linarith
  refine ⟨?_, ?_, fun hf => ?_, fun h => ?_, fun h => ?_, fun h => ?_⟩
  · rw [isNaN_eq_false_iff, magBits_ofMag hlt]
    exact Nat.min_le_right _ _
  · rw [hfin, nearestMag_lt_infMag_iff hn, ← habs, mul_lt_mul_iff_of_pos_right hp]
  · refine nearest_of_nearestMag ?_ (by rwa [signBit_ofMag hlt]) (by rwa [signBit_ofMag hlt])
    rwa [habs, magBits_ofMag hlt, roundUnits_eq, min_eq_left (hfin.mp hf).le]
  · rw [signBit_ofMag hlt]
    cases neg
    · linarith [hpos rfl]
    · rfl
  · rw [signBit_ofMag hlt]
    cases neg
    · rfl
    · linarith [hneg rfl]
  · rw [signBit_ofMag hlt]
    refine hz ?_
    have : (num : ℚ) / den = 0 := by rw [← habs, h]; simp
    exact_mod_cast (div_eq_zero_iff.mp this).resolve_right hdq.ne'

/-! ### The four operations on finite operands -/

/-- An integer is its sign times its magnitude. -/
theorem sign_mul_natAbs (n : Int) : (if decide (n < 0) then (-1 : ℚ) else 1) * (n.natAbs : ℚ) = n := by
  rw [Nat.cast_natAbs]
  rcases lt_or_ge n 0 with h | h
  · simp [h, abs_of_neg h]
  · simp [not_lt.mpr h, abs_of_nonneg h]

section
variable {nan a b : Word} (ha : isFinite a = true) (hb : isFinite b = true)
include ha hb

theorem fAdd_finite : fAdd nan a b =
    if units a + units b = 0 then zeroF (signBit a && signBit b)
    else ofMag (decide (units a + units b < 0)) (roundUnits (units a + units b).natAbs 1) := by
  simp [fAdd, isNaN_of_isFinite ha, isNaN_of_isFinite hb, isInf_of_isFinite ha, isInf_of_isFinite hb]

theorem fMul_finite : fMul nan a b =
    ofMag (signBit a ^^ signBit b) (roundUnits (magUnits a * magUnits b) unitsPerOne) := by
  simp [fMul, isNaN_of_isFinite ha, isNaN_of_isFinite hb, isInf_of_isFinite ha, isInf_of_isFinite hb]

theorem fDiv_finite (hz : isZero b = false) : fDiv nan a b =
    ofMag (signBit a ^^ signBit b) (roundUnits (magUnits a * unitsPerOne) (magUnits b)) := by
  simp [fDiv, isNaN_of_isFinite ha, isNaN_of_isFinite hb, isInf_of_isFinite ha, isInf_of_isFinite hb, hz]

theorem fAdd_roundsTo : roundsTo (valueOf a + valueOf b) (signBit a && signBit b) (fAdd nan a b) := by
  have hv : valueOf a + valueOf b = ((units a + units b : Int) : ℚ) / 2 ^ 149 := by
    rw [valueOf, valueOf, ← add_div, Int.cast_add]
  rw [fAdd_finite ha hb, hv]
  generalize units a + units b = s
  split
  · next h =>
    have h0 : roundUnits 0 1 = 0 := by decide
    have := roundsTo_ofMag (q := 0) (neg := signBit a && signBit b) (num := 0) one_pos (by simp) fun _ => rfl
    rw [h0] at this
    rw [h, Int.cast_zero, zero_div]
    exact this
  · next h =>
    refine roundsTo_ofMag one_pos ?_ fun h0 => absurd (Int.natAbs_eq_zero.mp h0) h
    rw [Nat.cast_one, div_one, ← mul_div_assoc, sign_mul_natAbs]

end

theorem fSub_roundsTo {nan a b : Word} (ha : isFinite a = true) (hb : isFinite b = true) :
    roundsTo (valueOf a - valueOf b) (signBit a && !signBit b) (fSub nan a b) := by
  have := fAdd_roundsTo (nan := nan) ha (b := negF b) (by simpa using hb)
  rwa [valueOf_negF, signBit_negF, ← sub_eq_add_neg] at this

theorem valueOf_eq_magUnits (v : Word) :
    valueOf v = (if signBit v then -1 else 1) * ((magUnits v : ℚ) / 2 ^ 149) := by
  rw [valueOf_eq, magUnits_eq, mul_div_assoc]

/-- The sign of a product or a quotient is the exclusive-or of the signs. -/
theorem sign_xor (s t : Bool) : (if s ^^ t then (-1 : ℚ) else 1) = (if s then -1 else 1) * (if t then -1 else 1) := by
  cases s <;> cases t <;> simp

theorem unitsPerOne_cast : ((unitsPerOne : Nat) : ℚ) = 2 ^ 149 := by
  rw [unitsPerOne]
  norm_num

theorem unitsPerOne_pos : 0 < unitsPerOne := by rw [unitsPerOne]; positivity

theorem fMul_roundsTo {nan a b : Word} (ha : isFinite a = true) (hb : isFinite b = true) :
    roundsTo (valueOf a * valueOf b) (signBit a ^^ signBit b) (fMul nan a b) := by
  rw [fMul_finite ha hb]
  refine roundsTo_ofMag unitsPerOne_pos ?_ fun _ => rfl
  rw [valueOf_eq_magUnits, valueOf_eq_magUnits, sign_xor, Nat.cast_mul, unitsPerOne_cast]
  ring

theorem fDiv_roundsTo {nan a b : Word} (ha : isFinite a = true) (hb : isFinite b = true) (hz : isZero b = false) :
    roundsTo (valueOf a / valueOf b) (signBit a ^^ signBit b) (fDiv nan a b) := by
  have hb0 : 0 < magUnits b := by
    rw [Nat.pos_iff_ne_zero, Ne, ← magBits_eq_zero_iff, ← isZero_iff]
    simp [hz]
  have hbq : (magUnits b : ℚ) ≠ 0 := by exact_mod_cast hb0.ne'
  rw [fDiv_finite ha hb hz]
  refine roundsTo_ofMag hb0 ?_ fun _ => rfl
  rw [valueOf_eq_magUnits, valueOf_eq_magUnits, sign_xor, Nat.cast_mul, unitsPerOne_cast]
  cases signBit a <;> cases signBit b <;> simp <;> field_simp

/-- Settles O47: each operation is the rounding of its exact result (`roundsTo`). -/
theorem arithmeticRoundsToNearest : Obligations.ArithmeticRoundsToNearest := fun _ _ _ ha hb =>
  ⟨fAdd_roundsTo ha hb, fSub_roundsTo ha hb, fMul_roundsTo ha hb, fDiv_roundsTo ha hb⟩

end Sys2Proof.Machine
end

section
/-!
PROOF. Integers (00_scope.md R14, R16, R17) and `wrap` (R15): `ofInt`, `floorF`, `toInt` and `toF` are exact, because the integers
they round are binary32 values.
-/

namespace Sys2Proof.Machine

/-! ### Integers as words -/

/-- Every integer below 2^24 in magnitude is a binary32 value. -/
theorem exists_valueOf_eq_int {n : Int} (hn : n.natAbs < 2 ^ 24) : ∃ c, isFinite c = true ∧ valueOf c = n := by
  obtain ⟨m, hm⟩ := exists_magValue (e := 149) hn
  have hlt : m < infMag := by
    rw [← magValue_strictMono.lt_iff_lt, hm, magValue_infMag]
    exact Nat.mul_lt_mul_of_pos_right (hn.trans (by norm_num)) (by positivity)
  have hlt' : m < 2 ^ 31 := hlt.trans (by decide)
  refine ⟨ofMag (decide (n < 0)) m, by rwa [isFinite_iff, magBits_ofMag hlt'], ?_⟩
  rw [valueOf_ofMag hlt', hm, Nat.cast_mul, Nat.cast_pow, Nat.cast_ofNat, ← mul_assoc,
    mul_div_cancel_right₀ _ (by positivity), sign_mul_natAbs]

theorem ofInt_roundsTo (n : Int) : roundsTo n false (ofInt n) := by
  unfold ofInt
  refine roundsTo_ofMag one_pos ?_ fun h => ?_
  · rw [Nat.cast_mul, unitsPerOne_cast, Nat.cast_one, div_one, mul_div_cancel_right₀ _ (by positivity),
      sign_mul_natAbs]
  · have := (Nat.mul_eq_zero.mp h).resolve_right unitsPerOne_pos.ne'
    simp [Int.natAbs_eq_zero.mp this]

theorem valueOf_toF {n : Nat} (hn : n < 2 ^ 24) : isFinite (toF n) = true ∧ valueOf (toF n) = n := by
  obtain ⟨c, hc, hv⟩ := exists_valueOf_eq_int (n := n) (by simpa using hn)
  have := (ofInt_roundsTo n).exact hc hv
  exact_mod_cast this

/-! ### The floor -/

theorem floorInt_eq (v : Word) : floorInt v = ⌊valueOf v⌋ := by
  rw [floorInt, valueOf, ← unitsPerOne_cast, Rat.floor_intCast_div_natCast]

/-- The floor of a finite word is a binary32 value: from 2^23 on the word itself, below that a small integer. -/
theorem exists_valueOf_eq_floor {x : Word} (hx : isFinite x = true) :
    ∃ c, isFinite c = true ∧ valueOf c = (⌊valueOf x⌋ : Int) := by
  by_cases h : 2 ^ (149 + 23) ≤ magValue (magBits x)
  · obtain ⟨k, hk⟩ := dvd_magValue (.inr h)
    refine ⟨x, hx, ?_⟩
    have hint : valueOf x = ((if signBit x then -k else k : Int) : ℚ) := by
      rw [valueOf_eq, hk, Nat.cast_mul, Nat.cast_pow, Nat.cast_ofNat, mul_left_comm,
        mul_div_cancel_left₀ _ (by positivity)]
      cases signBit x <;> simp
    rw [hint, Int.floor_intCast]
  · refine exists_valueOf_eq_int ?_
    have hlt : |valueOf x| < 2 ^ 23 := by
      rw [abs_valueOf, div_lt_iff₀ (by positivity), ← pow_add]
      exact_mod_cast Nat.lt_of_not_le h
    obtain ⟨hl, hu⟩ := abs_lt.mp hlt
    have h1 : -(2 ^ 23 : Int) ≤ ⌊valueOf x⌋ := Int.le_floor.mpr (by push_cast; exact hl.le)
    have h2 : ⌊valueOf x⌋ < (2 ^ 23 : Int) := Int.floor_lt.mpr (by push_cast; exact hu)
    omega

theorem valueOf_zeroF (neg : Bool) : isFinite (zeroF neg) = true ∧ valueOf (zeroF neg) = 0 := by
  have : isZero (zeroF neg) = true := by cases neg <;> decide
  exact ⟨isFinite_of_isZero this, valueOf_eq_zero_iff.mpr this⟩

/-- `floorF` of a finite word is finite and has exactly the value of the floor. -/
theorem valueOf_floorF {x : Word} (hx : isFinite x = true) :
    isFinite (floorF x) = true ∧ valueOf (floorF x) = (⌊valueOf x⌋ : Int) := by
  unfold floorF
  rw [if_neg (by simp [hx])]
  split
  · next h =>
    have h0 : valueOf x = 0 := valueOf_eq_zero_iff.mpr (by rw [h]; decide)
    rw [h0, Int.floor_zero, Int.cast_zero]
    exact valueOf_zeroF _
  · obtain ⟨c, hc, hv⟩ := exists_valueOf_eq_floor hx
    rw [floorInt_eq]
    exact (ofInt_roundsTo _).exact hc hv

theorem toInt_floorF {x : Word} (hx : isFinite x = true) : toInt (floorF x) = ⌊valueOf x⌋.toNat := by
  rw [toInt, floorInt_eq, (valueOf_floorF hx).2, Int.floor_intCast]

theorem roundHalfAway_bounds {v : Word} (hv : 0 ≤ valueOf v) :
    (roundHalfAway v : ℚ) - 1 / 2 ≤ valueOf v ∧ valueOf v < (roundHalfAway v : ℚ) + 1 / 2 := by
  have hval : valueOf v = magUnits v / (unitsPerOne : Nat) := by
    rw [← abs_of_nonneg hv, abs_valueOf, magUnits_eq, unitsPerOne_cast]
  have hU := unitsPerOne_pos
  have hUq : (0 : ℚ) < unitsPerOne := by exact_mod_cast hU
  have hlo : roundHalfAway v * (2 * unitsPerOne) ≤ 2 * magUnits v + unitsPerOne := Nat.div_mul_le_self _ _
  have hhi : 2 * magUnits v + unitsPerOne < (roundHalfAway v + 1) * (2 * unitsPerOne) :=
    Nat.lt_mul_of_div_lt (Nat.lt_succ_self _) (by omega)
  have hlo : (roundHalfAway v : ℚ) * (2 * unitsPerOne) ≤ 2 * magUnits v + unitsPerOne := by exact_mod_cast hlo
  have hhi : (2 * magUnits v + unitsPerOne : ℚ) < (roundHalfAway v + 1) * (2 * unitsPerOne) := by exact_mod_cast hhi
  rw [hval, le_div_iff₀ hUq, div_lt_iff₀ hUq]
  constructor <;> linarith

/-- Settles O48: floors and small integers are binary32 values, which rounding keeps. -/
theorem floorAndRoundAreExact : Obligations.FloorAndRoundAreExact := by
  refine ⟨fun x hx => ⟨valueOf_floorF hx, fun h0 _ => ?_, fun h0 => roundHalfAway_bounds ?_⟩, fun n hn => valueOf_toF hn⟩
  · rw [toInt_floorF hx, Int.toNat_of_nonneg (Int.floor_nonneg.mpr h0)]
  · rwa [fLe_iff (by decide) (isNaN_of_isFinite hx), valueOf_zero] at h0

/-! ### `wrap` -/

theorem wrap_nonfinite {nan x : Word} (hx : isFinite x = false) : wrap nan x = zero := by simp [wrap, hx]

theorem wrap_finite {nan x : Word} (hx : isFinite x = true) :
    wrap nan x = if fLe oneF (fSub nan x (floorF x)) then zero else fSub nan x (floorF x) := by simp [wrap, hx]

theorem unitOpenSet_iff {v : Word} : unitOpenSet v = true ↔ isFinite v = true ∧ 0 ≤ valueOf v ∧ valueOf v < 1 := by
  simp only [unitOpenSet, Bool.and_eq_true, and_assoc]
  refine and_congr_right fun hv => ?_
  have hn := isNaN_of_isFinite hv
  rw [zero_eq, oneF_eq, fLe_iff (by decide) hn, fLt_iff hn (by decide), valueOf_zero, valueOf_one]

/-- The distance of a finite word to its floor rounds into `[0, 1]`. -/
theorem fSub_floorF_bounds {nan x : Word} (hx : isFinite x = true) :
    isFinite (fSub nan x (floorF x)) = true ∧ 0 ≤ valueOf (fSub nan x (floorF x)) := by
  obtain ⟨hf, hv⟩ := valueOf_floorF hx
  have hr := fSub_roundsTo (nan := nan) hx hf
  have h0 : 0 ≤ valueOf x - valueOf (floorF x) := by rw [hv]; linarith [Int.floor_le (valueOf x)]
  have h1 : valueOf x - valueOf (floorF x) < 1 := by rw [hv]; linarith [Int.lt_floor_add_one (valueOf x)]
  have hfin := (hr.abs_valueOf_le (m := 0x3F800000) (by decide) (by rw [abs_of_nonneg h0, valueOf_one]; exact h1.le)).1
  exact ⟨hfin, hr.nonneg hfin h0⟩

theorem wrap_mem_unit (nan x : Word) : unitOpenSet (wrap nan x) = true := by
  have hzero : unitOpenSet zero = true := by decide
  rcases hx : isFinite x with _ | _
  · rwa [wrap_nonfinite hx]
  · rw [wrap_finite hx]
    obtain ⟨hf, h0⟩ := fSub_floorF_bounds (nan := nan) hx
    split
    · exact hzero
    · next h =>
      rw [oneF_eq, fLe_iff (by decide) (isNaN_of_isFinite hf), valueOf_one, not_le] at h
      exact unitOpenSet_iff.mpr ⟨hf, h0, h⟩

/-- Settles O49: the branches of `wrap`, and that the distance to the floor stays in `[0, 1]` when rounded. -/
theorem wrapIntoUnitInterval : Obligations.WrapIntoUnitInterval := by
  refine fun nan x => ⟨wrap_mem_unit nan x, wrap_nonfinite, fun hx => ⟨fun h => ?_, fun h => ?_⟩⟩
  · rw [wrap_finite hx, oneF_eq, if_pos h, zero_eq]
  · rw [wrap_finite hx, oneF_eq, if_neg (Bool.eq_false_iff.mp h)]

end Sys2Proof.Machine
end

section
/-! PROOF. Infinities, NaNs and zero divisors (00_scope.md R8, 93_implementation_defined.md I25): one equation for each operation
and class of operand. -/

namespace Sys2Proof.Machine

/-! ### The NaN drawn -/

theorem isNaN_or_quiet (v : Word) : isNaN (v ||| 0x7FC00000) = true := by
  have he : (0x7FC00000 : Word).extractLsb' 23 8 = BitVec.allOnes 8 := by decide
  have hf : (0x7FC00000 : Word).extractLsb' 0 23 ≠ 0#23 := by decide
  have h1 : expField (v ||| 0x7FC00000) = 255 := by
    rw [expField, BitVec.extractLsb'_or, he, BitVec.or_allOnes]
    rfl
  have h2 : fracField (v ||| 0x7FC00000) ≠ 0 := by
    rw [fracField, BitVec.extractLsb'_or]
    intro h
    exact hf (BitVec.or_eq_zero_iff.mp (BitVec.eq_of_toNat_eq h)).2
  rw [isNaN, Bool.and_eq_true, beq_iff_eq, bne_iff_ne]
  exact ⟨h1, h2⟩

/-- A NaN result is a NaN, and any NaN that is drawn. -/
theorem nanOf_spec (nan : Word) : isNaN (nanOf nan) = true ∧ (isNaN nan = true → nanOf nan = nan) := by
  unfold nanOf
  split
  · next h => exact ⟨h, fun _ => rfl⟩
  · next h => exact ⟨isNaN_or_quiet nan, fun hn => absurd hn h⟩

/-! ### The classes exclude each other -/

theorem isZero_of_isInf {v : Word} (h : isInf v = true) : isZero v = false := by
  rw [← Bool.not_eq_true, isZero_iff, isInf_iff.mp h]
  decide

theorem infF_eq (neg : Bool) : infF neg = if neg then 0xFF800000 else 0x7F800000 := by cases neg <;> decide

theorem zeroF_eq (neg : Bool) : zeroF neg = if neg then 0x80000000 else 0x00000000 := by cases neg <;> decide

/-! ### Each operation on special operands -/

variable {nan a b : Word}

theorem arithmetic_of_isNaN (h : isNaN a = true ∨ isNaN b = true) :
    fAdd nan a b = nanOf nan ∧ fSub nan a b = nanOf nan ∧ fMul nan a b = nanOf nan ∧ fDiv nan a b = nanOf nan := by
  have h : (isNaN a || isNaN b) = true := by simpa using h
  simp [fAdd, fSub, fMul, fDiv, h]

theorem fAdd_inf_left (ha : isInf a = true) (hb : isNaN b = false) :
    fAdd nan a b = if isInf b && (signBit a ^^ signBit b) then nanOf nan else a := by
  simp [fAdd, ha, hb, isNaN_of_isInf ha]

theorem fAdd_inf_right (ha : isFinite a = true) (hb : isInf b = true) : fAdd nan a b = b := by
  simp [fAdd, hb, isNaN_of_isInf hb, isNaN_of_isFinite ha, isInf_of_isFinite ha]

theorem fMul_inf_left (ha : isInf a = true) (hb : isNaN b = false) :
    fMul nan a b = if isZero b then nanOf nan else infF (signBit a ^^ signBit b) := by
  simp [fMul, ha, hb, isNaN_of_isInf ha, isZero_of_isInf ha]

theorem fMul_inf_right (ha : isNaN a = false) (hb : isInf b = true) :
    fMul nan a b = if isZero a then nanOf nan else infF (signBit a ^^ signBit b) := by
  simp [fMul, ha, hb, isNaN_of_isInf hb, isZero_of_isInf hb]

theorem fDiv_inf_left (ha : isInf a = true) (hb : isNaN b = false) :
    fDiv nan a b = if isInf b then nanOf nan else infF (signBit a ^^ signBit b) := by
  simp [fDiv, ha, hb, isNaN_of_isInf ha]

theorem fDiv_inf_right (ha : isFinite a = true) (hb : isInf b = true) :
    fDiv nan a b = zeroF (signBit a ^^ signBit b) := by
  simp [fDiv, hb, isNaN_of_isInf hb, isNaN_of_isFinite ha, isInf_of_isFinite ha]

theorem fDiv_zero_right (ha : isFinite a = true) (hb : isZero b = true) :
    fDiv nan a b = if isZero a then nanOf nan else infF (signBit a ^^ signBit b) := by
  have hbf := isFinite_of_isZero hb
  simp [fDiv, hb, isNaN_of_isFinite ha, isInf_of_isFinite ha, isNaN_of_isFinite hbf, isInf_of_isFinite hbf]

/-- An infinity and a finite operand. -/
theorem arithmetic_inf_finite (ha : isInf a = true) (hb : isFinite b = true) :
    fAdd nan a b = a ∧ fAdd nan b a = a ∧ fSub nan a b = a ∧ fSub nan b a = negF a ∧
    (isZero b = false →
      fMul nan a b = infF (signBit a ^^ signBit b) ∧ fMul nan b a = infF (signBit a ^^ signBit b)) ∧
    (isZero b = true → fMul nan a b = nanOf nan ∧ fMul nan b a = nanOf nan) ∧
    fDiv nan a b = infF (signBit a ^^ signBit b) ∧ fDiv nan b a = zeroF (signBit a ^^ signBit b) := by
  have hbn := isNaN_of_isFinite hb
  have hbi := isInf_of_isFinite hb
  refine ⟨?_, fAdd_inf_right hb ha, ?_, fAdd_inf_right hb (by simpa using ha), fun hz => ?_, fun hz => ?_, ?_, ?_⟩
  · simp [fAdd_inf_left ha hbn, hbi]
  · rw [fSub, fAdd_inf_left ha (by simpa using hbn)]
    simp [hbi]
  · simp [fMul_inf_left ha hbn, fMul_inf_right hbn ha, hz, Bool.xor_comm]
  · simp [fMul_inf_left ha hbn, fMul_inf_right hbn ha, hz]
  · simp [fDiv_inf_left ha hbn, hbi]
  · rw [fDiv_inf_right hb ha, Bool.xor_comm]

/-- Two infinities. -/
theorem arithmetic_inf_inf (ha : isInf a = true) (hb : isInf b = true) :
    (signBit a ^^ signBit b) = false ∧ fAdd nan a b = a ∧ fSub nan a b = nanOf nan ∨
    (signBit a ^^ signBit b) = true ∧ fAdd nan a b = nanOf nan ∧ fSub nan a b = a := by
  have hbn := isNaN_of_isInf hb
  rw [fSub, fAdd_inf_left ha hbn, fAdd_inf_left ha (by simpa using hbn)]
  cases h : signBit a ^^ signBit b
  · exact .inl (by simp [hb, h])
  · exact .inr (by simp [hb, h])

/-- Settles O56, by the classes of the operands. -/
theorem arithmeticOfSpecialOperands : Obligations.ArithmeticOfSpecialOperands := by
  intro nan a b
  have hnan := nanOf_spec nan
  simp only [← infF_eq, ← zeroF_eq]
  refine ⟨fun h => ?_, fun ha hb => ?_, fun ha hb => ⟨fun hs => ?_, fun hs => ?_, ?_, ?_⟩, fun ha hb =>
    ⟨fun hz => ?_, fun hz => ?_⟩⟩
  · obtain ⟨hadd, hsub, hmul, hdiv⟩ := arithmetic_of_isNaN (nan := nan) h
    rw [hadd, hsub, hmul, hdiv]
    exact ⟨hnan, hnan, hnan, hnan⟩
  · obtain ⟨hadd, hadd', hsub, hsub', hmul, hmulz, hdiv, hdiv'⟩ := arithmetic_inf_finite (nan := nan) ha hb
    refine ⟨hadd, hadd', hsub, hsub', hmul, fun hz => ?_, hdiv, hdiv'⟩
    rw [(hmulz hz).1, (hmulz hz).2]
    exact ⟨hnan, hnan⟩
  · rcases arithmetic_inf_inf (nan := nan) ha hb with ⟨-, hadd, hsub⟩ | ⟨h, -⟩
    · rw [hadd, hsub]
      exact ⟨rfl, hnan⟩
    · simp [h] at hs
  · rcases arithmetic_inf_inf (nan := nan) ha hb with ⟨h, -⟩ | ⟨-, hadd, hsub⟩
    · simp [h] at hs
    · rw [hadd, hsub]
      exact ⟨hnan, rfl⟩
  · simp [fMul_inf_left ha (isNaN_of_isInf hb), isZero_of_isInf hb]
  · rw [fDiv_inf_left ha (isNaN_of_isInf hb), if_pos hb]
    exact hnan
  · rw [fDiv_zero_right ha hb, if_neg (by simp [hz])]
  · rw [fDiv_zero_right ha hb, if_pos hz]
    exact hnan

end Sys2Proof.Machine
end

section
/-! PROOF. `sinF` and `tanhF` (00_scope.md R13) of every build, and the reference tables (44_wavetable.md R241). -/

namespace Sys2Proof.Machine

/-! ### `sinF` -/

section
variable {t : Trig} {nan x : Word}

theorem sinF_nonfinite (h : isFinite x = false) : sinF t nan x = nanOf nan := by simp [sinF, h]

theorem sinF_zero (h : isZero x = true) : sinF t nan x = x := by simp [sinF, h, isFinite_of_isZero h]

/-- The result for a finite argument depends on the argument alone. -/
theorem sinF_finite_congr (q : Word) (h : isFinite x = true) : sinF t nan x = sinF t q x := by simp [sinF, h]

theorem absAtMost_one_iff {v : Word} : absAtMost 0x3F800000 v ↔ magBits v ≤ magBits 0x3F800000 :=
  absAtMost_iff (by decide) (by decide)

theorem absAtMost_one_of_isZero {v : Word} (h : isZero v = true) : absAtMost 0x3F800000 v :=
  absAtMost_of_isZero (by decide) (by decide) h

theorem sinF_absAtMost_one (h : isFinite x = true) : absAtMost 0x3F800000 (sinF t nan x) := by
  by_cases hz : isZero x = true
  · rw [sinF_zero hz]
    exact absAtMost_one_of_isZero hz
  · simp only [sinF, h, hz, Bool.not_true, Bool.false_eq_true, if_false]
    split
    · next hy => exact Bool.and_eq_true_iff.mp hy
    · exact absAtMost_one_of_isZero (by decide)

/-! ### `tanhF` -/

theorem tanhPos_bounds (t : Trig) (x : Word) :
    fLe 0x00000000 (tanhPos t x) = true ∧ fLe (tanhPos t x) 0x3F800000 = true := by
  simp only [tanhPos]
  split
  · next h => exact Bool.and_eq_true_iff.mp h
  · decide

theorem tanhPos_absAtMost_one (t : Trig) (x : Word) : absAtMost 0x3F800000 (tanhPos t x) := by
  obtain ⟨h0, h1⟩ := tanhPos_bounds t x
  have hn := isNaN_of_fLe_left h1
  refine ⟨?_, h1⟩
  rw [fLe_iff (by decide) hn, valueOf_zero] at h0
  rw [fLe_iff (by decide) hn, valueOf_negF, valueOf_one]
  linarith

theorem tanhF_nan (h : isNaN x = true) : tanhF t nan x = nanOf nan := by simp [tanhF, h]

theorem tanhF_inf (h : isInf x = true) : tanhF t nan x = if signBit x then negOneF else oneF := by
  simp [tanhF, h, isNaN_of_isInf h]

theorem tanhF_zero (h : isZero x = true) : tanhF t nan x = x := by
  have hf := isFinite_of_isZero h
  simp [tanhF, h, isNaN_of_isFinite hf, isInf_of_isFinite hf]

theorem tanhF_finite (hf : isFinite x = true) (hz : isZero x = false) :
    tanhF t nan x = if signBit x then negF (tanhPos t (negF x)) else tanhPos t x := by
  simp [tanhF, hz, isNaN_of_isFinite hf, isInf_of_isFinite hf]

/-- A word is a NaN, an infinity, a zero, or finite and nonzero. -/
theorem word_class (v : Word) :
    isNaN v = true ∨ isInf v = true ∨ isZero v = true ∨ (isFinite v = true ∧ isZero v = false) := by
  rw [isNaN_iff, isInf_iff, isFinite_iff, ← Bool.not_eq_true, isZero_iff]
  omega

/-- The result for an argument that is no NaN depends on the argument alone. -/
theorem tanhF_congr (q : Word) (h : isNaN x = false) : tanhF t nan x = tanhF t q x := by simp [tanhF, h]

theorem tanhF_negF (h : isNaN x = false) : tanhF t nan (negF x) = negF (tanhF t nan x) := by
  rcases word_class x with hn | hi | hz | ⟨hf, hz⟩
  · simp [h] at hn
  · rw [tanhF_inf hi, tanhF_inf (by simpa using hi), signBit_negF]
    cases signBit x <;> decide
  · rw [tanhF_zero hz, tanhF_zero (by simpa using hz)]
  · rw [tanhF_finite hf hz, tanhF_finite (by simpa using hf) (by simpa using hz), signBit_negF]
    cases signBit x <;> simp

/-- Bounded for every argument but a NaN, an infinity included. -/
theorem tanhF_absAtMost_one (h : isNaN x = false) : absAtMost 0x3F800000 (tanhF t nan x) := by
  rcases word_class x with hn | hi | hz | ⟨hf, hz⟩
  · simp [h] at hn
  · rw [tanhF_inf hi, absAtMost_one_iff]
    cases signBit x <;> decide
  · rw [tanhF_zero hz]
    exact absAtMost_one_of_isZero hz
  · rw [tanhF_finite hf hz]
    split
    · rw [absAtMost_one_iff, magBits_negF, ← absAtMost_one_iff]
      exact tanhPos_absAtMost_one t _
    · exact tanhPos_absAtMost_one t x

theorem tanhF_nonneg (hf : isFinite x = true) (h : fLt 0x00000000 x = true) :
    fLe 0x00000000 (tanhF t nan x) = true := by
  rw [fLt_iff (by decide) (isNaN_of_isFinite hf), valueOf_zero] at h
  have hz : isZero x = false := by
    rw [← Bool.not_eq_true, ← valueOf_eq_zero_iff]
    exact h.ne'
  have hs : signBit x = false := by
    rw [← Bool.not_eq_true]
    exact fun hs => absurd h (valueOf_nonpos hs).not_gt
  rw [tanhF_finite hf hz, hs]
  exact (tanhPos_bounds t x).1

end

/-- Settles O50, by the classes of the argument. -/
theorem sineAndTanhProperties : Obligations.SineAndTanhProperties := by
  intro t q q' x
  have hnan : ∀ v, isNaN (nanOf v) = true := fun v => (nanOf_spec v).1
  refine ⟨?_, ?_, fun hz => ⟨sinF_zero hz, tanhF_zero hz⟩,
    fun hf => ⟨sinF_absAtMost_one hf, tanhF_absAtMost_one (isNaN_of_isFinite hf)⟩, tanhF_negF, tanhF_nonneg,
    fun hn => ?_, ?_, ?_, tanhF_inf (by decide), tanhF_inf (by decide)⟩
  · rcases hf : isFinite x with _ | _
    · rw [sinF_nonfinite hf, sinF_nonfinite hf]
      exact .inr ⟨hnan q, hnan q'⟩
    · exact .inl (sinF_finite_congr q' hf)
  · rcases hn : isNaN x with _ | _
    · exact .inl (tanhF_congr q' hn)
    · rw [tanhF_nan hn, tanhF_nan hn]
      exact .inr ⟨hnan q, hnan q'⟩
  · have hf : isFinite x = false := isFinite_eq_false_iff.mpr (isNaN_iff.mp hn).le
    rw [sinF_nonfinite hf, tanhF_nan hn]
    exact ⟨hnan q, hnan q⟩
  · rw [sinF_nonfinite (by decide)]
    exact hnan q
  · rw [sinF_nonfinite (by decide)]
    exact hnan q

/-! ### The reference tables -/

/-- The sine of a whole number of turns has no magnitude. -/
theorem fixSinTurn_zero (N : Nat) : fixSinTurn 0 N = (false, 0) := by
  simp [fixSinTurn, fixSin, fixMul]

theorem harmonicSum_zero (N H : Nat) : harmonicSum 0 N H = 0 := by
  induction H with
  | zero => rfl
  | succ H ih => simp [harmonicSum, ih, fixSinTurn_zero]

theorem tanhMag_zero : tanhMag 0 = 0 := by decide +kernel

theorem romReference_zero (b : Build) (t : Nat) : romReference b t 0 = 0x00000000 := by
  simp only [romReference, harmonicSum_zero, Int.natAbs_zero, tanhMag_zero]
  decide

theorem magBits_romReference_le (b : Build) (t i : Nat) : magBits (romReference b t i) ≤ magBits 0x3F800000 := by
  have h : ∀ x, tanhMag x < 2 ^ 31 := fun x => (tanhMag_le_one x).trans_lt (by decide)
  have h1 : magBits 0x3F800000 = 0x3F800000 := by decide
  simp only [romReference]
  rw [magBits_ofMag (h _), h1]
  exact tanhMag_le_one _

/-- Settles O58: a table word has the magnitude bits of a hyperbolic tangent, at most those of 1.0. -/
theorem referenceTablesAreBounded : Obligations.ReferenceTablesAreBounded := by
  intro b _ hrom
  have hword : ∀ t i, wtRom b t i = romReference b t i := fun t i => by rw [wtRom, hrom]
  refine ⟨fun t i _ _ => ?_, fun t i _ _ => ⟨?_, ?_⟩⟩
  · rw [hword, isFinite_iff]
    exact (magBits_romReference_le b t i).trans_lt (by decide)
  · rw [hword, absAtMost_one_iff]
    exact magBits_romReference_le b t i
  · rw [hword, romReference_zero]

end Sys2Proof.Machine
end

section
/-!
PROOF. The ladders stay bounded (41_filters.md R170). A first difference of two words within `2^k` is within `2^(k+1)`
(`fSub_absAtMost_double`), so one LAD keeps the bounds from any state of its ladder; no other command makes a stage or a
delay larger.
-/

namespace Sys2Proof.Machine

/-! ### Bounds by value -/

theorem absAtMost_iff_abs {m v : Word} (hm : signBit m = false) (hf : isFinite m = true) :
    absAtMost m v ↔ isFinite v = true ∧ |valueOf v| ≤ valueOf m := by
  have hlt := isFinite_iff.mp hf
  have habs := @abs_valueOf_le_iff v m
  rw [abs_of_nonneg (valueOf_nonneg hm)] at habs
  rw [absAtMost_iff hm (isNaN_of_isFinite hf), habs, isFinite_iff]
  exact ⟨fun h => ⟨h.trans_lt hlt, h⟩, fun h => h.2⟩

theorem ladBound_finite (k : Fin 5) : signBit (ladBound k) = false ∧ isFinite (ladBound k) = true := by
  revert k
  decide

theorem valueOf_ladBound (k : Fin 5) : valueOf (ladBound k) = 2 ^ (k : Nat) := by
  have h : ∀ k : Fin 5, ladBound k = ofMag false ((126 + k) * 2 ^ 23 + 2 ^ 23) := by decide
  rw [h, valueOf_ofMag (by omega), magValue_shifted (by norm_num) (.inr le_rfl), ← pow_add,
    show 23 + (126 + (k : Nat)) = k + 149 by omega, pow_add, Nat.cast_mul, Nat.cast_pow, Nat.cast_pow, Nat.cast_ofNat]
  simp

/-- A word within a bound of the ladder is finite. -/
theorem isFinite_of_absAtMost_ladBound {k : Fin 5} {v : Word} (h : absAtMost (ladBound k) v) : isFinite v = true := by
  obtain ⟨hs, hf⟩ := ladBound_finite k
  exact ((absAtMost_iff_abs hs hf).mp h).1

/-- A difference of two words within `2^k` is within `2^(k+1)`, rounded. -/
theorem fSub_absAtMost_double {k : Fin 4} {nan a b : Word} (ha : absAtMost (ladBound k.castSucc) a)
    (hb : absAtMost (ladBound k.castSucc) b) : absAtMost (ladBound k.succ) (fSub nan a b) := by
  obtain ⟨hs, hf⟩ := ladBound_finite k.castSucc
  obtain ⟨hs', hf'⟩ := ladBound_finite k.succ
  obtain ⟨haf, ha⟩ := (absAtMost_iff_abs hs hf).mp ha
  obtain ⟨hbf, hb⟩ := (absAtMost_iff_abs hs hf).mp hb
  refine (absAtMost_iff_abs hs' hf').mpr ((fSub_roundsTo haf hbf).abs_valueOf_le hf' ?_)
  rw [valueOf_ladBound, Fin.val_castSucc] at ha hb
  rw [valueOf_ladBound, Fin.val_succ, pow_succ]
  have := abs_sub (valueOf a) (valueOf b)
  linarith

/-! ### One ladder -/

/-- The bounds of a ladder whose fields are written out. -/
theorem Lad.bounded_mk {fb d0 d1 d2 d3 s0 s1 s2 s3 : Word}
    (hd : absAtMost (ladBound 0) d0 ∧ absAtMost (ladBound 1) d1 ∧ absAtMost (ladBound 2) d2 ∧ absAtMost (ladBound 3) d3)
    (hs : absAtMost (ladBound 1) s0 ∧ absAtMost (ladBound 2) s1 ∧ absAtMost (ladBound 3) s2 ∧ absAtMost (ladBound 4) s3) :
    Lad.bounded { fb := fb, stage := #v[s0, s1, s2, s3], delay := #v[d0, d1, d2, d3] } := by
  obtain ⟨hd0, hd1, hd2, hd3⟩ := hd
  obtain ⟨hs0, hs1, hs2, hs3⟩ := hs
  constructor <;> intro i <;> fin_cases i
  exacts [hd0, hd1, hd2, hd3, hs0, hs1, hs2, hs3]

theorem Lad.bounded_zeros (fb : Word) :
    Lad.bounded { fb := fb, stage := #v[0, 0, 0, 0], delay := #v[0, 0, 0, 0] } := by
  have h : ∀ k, absAtMost (ladBound k) 0 := fun k =>
    absAtMost_of_isZero (ladBound_finite k).1 (isNaN_of_isFinite (ladBound_finite k).2) (by decide)
  exact Lad.bounded_mk ⟨h 0, h 1, h 2, h 3⟩ ⟨h 1, h 2, h 3, h 4⟩

theorem ladSet_bounded {u : Lad} (p : Nat) (v : Word) (h : u.bounded) : (ladSet u p v).bounded := by
  unfold ladSet
  split
  · exact h
  · exact h

/-- The output of a bounded ladder is finite. -/
theorem Lad.bounded.isFinite_stage {u : Lad} (h : u.bounded) : isFinite u.stage[3] = true :=
  isFinite_of_absAtMost_ladBound (h.2 3)

/-- The chained differences of a LAD, from a new input within 1. -/
theorem Lad.bounded_differences (nan : Nat → Word) {u : Lad} {u0 : Word} (hu : u.bounded)
    (h0 : absAtMost (ladBound 0) u0) :
    let s0 := fSub (nan 4) u0 u.delay[0]
    let s1 := fSub (nan 5) s0 u.delay[1]
    let s2 := fSub (nan 6) s1 u.delay[2]
    let s3 := fSub (nan 7) s2 u.delay[3]
    Lad.bounded { u with stage := #v[s0, s1, s2, s3], delay := #v[u0, s0, s1, s2] } := by
  obtain ⟨hd, -⟩ := hu
  have h1 := fSub_absAtMost_double (k := 0) (nan := nan 4) h0 (hd 0)
  have h2 := fSub_absAtMost_double (k := 1) (nan := nan 5) h1 (hd 1)
  have h3 := fSub_absAtMost_double (k := 2) (nan := nan 6) h2 (hd 2)
  have h4 := fSub_absAtMost_double (k := 3) (nan := nan 7) h3 (hd 3)
  exact Lad.bounded_mk ⟨h0, h1, h2, h3⟩ ⟨h1, h2, h3, h4⟩

/-- Both hyperbolic tangents of a LAD have arguments that are no NaN, the ladder being bounded. -/
theorem ladStep_bounded (t : Trig) (nan : Nat → Word) {inp : Word} {u : Lad} (hfb : isFinite u.fb = true)
    (hin : isFinite inp = true) (hu : u.bounded) : (ladStep t nan inp u).bounded := by
  have hsigma : absAtMost (ladBound 0) (tanhF t (nan 1) (fMul (nan 0) u.fb u.stage[3])) :=
    tanhF_absAtMost_one (fMul_roundsTo hfb hu.isFinite_stage).1
  exact Lad.bounded_differences nan hu
    (tanhF_absAtMost_one (fSub_roundsTo hin (isFinite_of_absAtMost_ladBound hsigma)).1)

/-! ### Next states of the operand checks -/

theorem onInst_next {α : Type} {op : BitVec 6} {us : List α} {n : Nat} {s t : State} {body : α → Result}
    (h : onInst op us n s body = .next t) :
    t = s.record .badInst op ∨ ∃ u, us[n]? = some u ∧ body u = .next t := by
  rcases onInst_cases op us n s body with ⟨u, hu, he⟩ | ⟨-, he⟩
  · exact .inr ⟨u, hu, he ▸ h⟩
  · rw [he] at h
    cases h
    exact .inl rfl

theorem onSample_next {op : BitVec 6} {r : Reg} {s t : State} {body : Word → Result}
    (h : onSample op r s body = .next t) :
    t = s.record .nonfinite op ∨ (isFinite (s.getX r) = true ∧ body (s.getX r) = .next t) := by
  rcases onSample_cases op r s body with ⟨hf, he⟩ | ⟨-, he⟩
  · exact .inr ⟨hf, he ▸ h⟩
  · rw [he] at h
    cases h
    exact .inl rfl

/-- A command of one unit and one sample operand either records an error or has its effect. -/
theorem sampleCommand_next {α : Type} {op : BitVec 6} {us : List α} {n : Nat} {r : Reg} {s t : State}
    {effect : α → Word → State} (h : (onInst op us n s fun u => onSample op r s fun v => .next (effect u v)) = .next t) :
    (∃ e, t = s.record e op) ∨
    ∃ u, us[n]? = some u ∧ isFinite (s.getX r) = true ∧ t = effect u (s.getX r) := by
  rcases onInst_next h with rfl | ⟨u, hu, h⟩
  · exact .inl ⟨_, rfl⟩
  rcases onSample_next h with rfl | ⟨hf, h⟩
  · exact .inl ⟨_, rfl⟩
  · exact .inr ⟨u, hu, hf, by cases h; rfl⟩

/-- Everything a PSET can do: record an error, or store the value. -/
theorem execPset_cases {n u p : Nat} {s1 : Reg} {s t : State} (h : execPset n s1 u p s = .next t) :
    (∃ e, t = s.record e 0x03) ∨
    (access u p = some .rw ∧ s.legal u n p (s.getX s1) = true ∧ t = s.setParam u n p (s.getX s1)) := by
  simp only [execPset, raise_eq] at h
  split at h
  · exact .inl ⟨_, by cases h; rfl⟩
  split at h
  · exact .inl ⟨_, by cases h; rfl⟩
  split at h
  · exact .inl ⟨_, by cases h; rfl⟩
  · exact .inl ⟨_, by cases h; rfl⟩
  · next ha =>
    split at h
    · next hl => exact .inr ⟨ha, hl, by cases h; rfl⟩
    · exact .inl ⟨_, by cases h; rfl⟩

/-! ### What a command does to the ladders -/

/-- Storing a parameter touches a ladder only in class 2. -/
theorem setParam_lad (s : State) (u n p : Nat) (v : Word) :
    (s.setParam u n p v).lad = s.lad ∨ (s.setParam u n p v).lad = s.lad.modify n (ladSet · p v) := by
  unfold State.setParam
  split
  case h_2 => exact .inr rfl
  all_goals exact .inl rfl

/-- A command of one unit and one sample operand whose effect is elsewhere leaves the ladders alone. -/
theorem sampleCommand_lad {α : Type} {op : BitVec 6} {us : List α} {n : Nat} {r : Reg} {s t : State}
    {effect : α → Word → State} (h : (onInst op us n s fun u => onSample op r s fun v => .next (effect u v)) = .next t)
    (he : ∀ u v, (effect u v).lad = s.lad) : t.lad = s.lad := by
  rcases sampleCommand_next h with ⟨e, rfl⟩ | ⟨u, -, -, rfl⟩
  · rfl
  · exact he _ _

/-- Everything a command can do to the ladders. -/
theorem exec_lad_cases {i : Instr} {s t : State} (h : exec i s = .next t) :
    t.lad = s.lad ∨ t.lad = s.lad.map ladClear ∨ (∃ n p v, t.lad = s.lad.modify n (ladSet · p v)) ∨
    (∃ n d s1 u, i = .lad n d s1 ∧ s.lad[n]? = some u ∧ isFinite (s.getX s1) = true ∧
      t.lad = s.lad.set n (ladStep s.build.trig s.nan (s.getX s1) u)) := by
  cases i with
  | nop => cases h; exact .inl rfl
  | reset => cases h; exact .inr (.inl rfl)
  | pset n s1 u p =>
    rcases execPset_cases h with ⟨e, rfl⟩ | ⟨-, -, rfl⟩
    · exact .inl rfl
    · rcases setParam_lad s u n p (s.getX s1) with hl | hl
      · exact .inl hl
      · exact .inr (.inr (.inl ⟨n, p, _, hl⟩))
  | lad n d s1 =>
    rcases sampleCommand_next h with ⟨e, rfl⟩ | ⟨u, hu, hf, rfl⟩
    · exact .inl rfl
    · exact .inr (.inr (.inr ⟨n, d, s1, u, rfl, hu, hf, rfl⟩))
  | prep s1 =>
    simp only [exec, execPrep, raise_eq] at h
    split at h <;> (cases h; exact .inl rfl)
  | pget n d u p =>
    simp only [exec, execPget, raise_eq] at h
    repeat' split at h
    all_goals (cases h; exact .inl rfl)
  | dlysz n s1 =>
    rcases onInst_next h with rfl | ⟨u, -, h⟩
    · exact .inl rfl
    · simp only [raise_eq] at h
      split at h <;> (cases h; exact .inl rfl)
  | ksf n s1 =>
    rcases onInst_next h with rfl | ⟨u, -, h⟩
    · exact .inl rfl
    · simp only [raise_eq] at h
      repeat' split at h
      all_goals (cases h; exact .inl rfl)
  | fm n d s1 s2 =>
    rcases onInst_next h with rfl | ⟨u, -, h⟩
    · exact .inl rfl
    rcases onSample_next h with rfl | ⟨-, h⟩
    · exact .inl rfl
    rcases onSample_next h with rfl | ⟨-, h⟩
    · exact .inl rfl
    · cases h; exact .inl rfl
  | env n d g =>
    rcases onInst_next h with rfl | ⟨u, -, h⟩
    · exact .inl rfl
    · cases h; exact .inl rfl
  | lfo n d =>
    rcases onInst_next h with rfl | ⟨u, -, h⟩
    · exact .inl rfl
    · cases h; exact .inl rfl
  | sclip d s1 =>
    simp only [exec, execSclip] at h
    rcases onSample_next h with rfl | ⟨-, h⟩
    · exact .inl rfl
    · cases h; exact .inl rfl
  | fadd d s1 s2 =>
    simp only [exec, execFadd] at h
    rcases onSample_next h with rfl | ⟨-, h⟩
    · exact .inl rfl
    rcases onSample_next h with rfl | ⟨-, h⟩
    · exact .inl rfl
    · cases h; exact .inl rfl
  | fmul d s1 s2 =>
    simp only [exec, execFmul] at h
    rcases onSample_next h with rfl | ⟨-, h⟩
    · exact .inl rfl
    rcases onSample_next h with rfl | ⟨-, h⟩
    · exact .inl rfl
    · cases h; exact .inl rfl
  | svfLp n d s1 => exact .inl (sampleCommand_lad h fun _ _ => rfl)
  | svfBp n d s1 => exact .inl (sampleCommand_lad h fun _ _ => rfl)
  | svfHp n d s1 => exact .inl (sampleCommand_lad h fun _ _ => rfl)
  | svfNotch n d s1 => exact .inl (sampleCommand_lad h fun _ _ => rfl)
  | rev n d s1 => exact .inl (sampleCommand_lad h fun _ _ => rfl)
  | dly n d s1 => exact .inl (sampleCommand_lad h fun _ _ => rfl)
  | cho n d s1 => exact .inl (sampleCommand_lad h fun _ _ => rfl)
  | wt n d s1 => exact .inl (sampleCommand_lad h fun _ _ => rfl)
  | ks n d s1 => exact .inl (sampleCommand_lad h fun _ _ => rfl)

/-! ### Every step -/

/-- Starting a command and serving the accesses that overlap it touch no ladder. -/
theorem startedFrom_lad (w : Word) (s : State) : (startedFrom w s).lad = s.lad :=
  serveAll_sameBut _ _ .lad (by decide)

theorem fb_finite_of_paramsLegal {s : State} {n : Nat} {u : Lad} (h : s.paramsLegal) (hu : s.lad[n]? = some u) :
    isFinite u.fb = true :=
  h.2 2 n 0 u.fb rfl (by simp [State.getParam, hu, ladGet])

/-- A command keeps every ladder bounded, the gains being finite. -/
theorem exec_keeps_ladders_bounded {i : Instr} {s t : State} (hfb : ∀ (n : Nat) (u : Lad), s.lad[n]? = some u →
    isFinite u.fb = true) (hs : ∀ u ∈ s.lad, u.bounded) (h : exec i s = .next t) : ∀ u ∈ t.lad, u.bounded := by
  intro u hu
  rcases exec_lad_cases h with hl | hl | ⟨n, p, v, hl⟩ | ⟨n, d, s1, u0, -, hu0, hf, hl⟩ <;> rw [hl] at hu
  · exact hs u hu
  · obtain ⟨u0, -, rfl⟩ := List.mem_map.mp hu
    exact Lad.bounded_zeros u0.fb
  · obtain ⟨m, hm⟩ := List.mem_iff_getElem?.mp hu
    rw [List.getElem?_modify, Option.map_eq_map, Option.map_eq_some_iff] at hm
    obtain ⟨u0, hu0, rfl⟩ := hm
    have hb := hs u0 (List.mem_of_getElem? hu0)
    split
    · exact ladSet_bounded p v hb
    · exact hb
  · rcases List.mem_or_eq_of_mem_set hu with hu | rfl
    · exact hs u hu
    · exact ladStep_bounded _ _ (hfb n u0 hu0) hf (hs u0 (List.mem_of_getElem? hu0))

/-- A step keeps every ladder bounded: a reset clears them, an access does not touch them, a command keeps the bounds. -/
theorem step_keeps_ladders_bounded {s t : State} (hp : s.paramsLegal) (hs : ∀ u ∈ s.lad, u.bounded)
    (h : step s = .next t) : ∀ u ∈ t.lad, u.bounded := by
  rcases step_cases h with ⟨-, rfl⟩ | ⟨es, -, rfl⟩ | ⟨op, early, es, -, -, rfl⟩ | ⟨op, early, es, w, -, -, -, hrun⟩
  · exact hs
  · intro u hu
    rw [List.eq_of_mem_replicate hu]
    exact Lad.bounded_zeros 0
  · have hl : (serve op { s with host := es }).lad = s.lad := serve_sameBut op _ .lad (by decide)
    rwa [hl]
  · have hl : (startedFrom w { s with host := es }).lad = s.lad := startedFrom_lad w _
    rcases runCommand_cases hrun with ⟨i, v, -, hexec, rfl⟩ | ⟨r, -, rfl⟩
    · refine exec_keeps_ladders_bounded (t := v) (fun n u hu => ?_) ?_ hexec
      · rw [hl] at hu
        exact fb_finite_of_paramsLegal hp hu
      · rwa [hl]
    · exact fun u hu => hs u (hl ▸ hu)

/-- What LAD does to its own ladder: nothing when the sample is refused, else one step. -/
theorem exec_lad_own {n : Nat} {d s1 : Reg} {s t : State} {u u' : Lad} (hu : s.lad[n]? = some u)
    (h : exec (.lad n d s1) s = .next t) (hu' : t.lad[n]? = some u') :
    u' = u ∨ (isFinite (s.getX s1) = true ∧ u' = ladStep s.build.trig s.nan (s.getX s1) u) := by
  rcases sampleCommand_next h with ⟨e, rfl⟩ | ⟨v, hv, hf, rfl⟩
  · exact .inl (Option.some.inj (hu'.symm.trans hu))
  · obtain rfl : v = u := Option.some.inj (hv.symm.trans hu)
    exact .inr ⟨hf, Option.some.inj (hu'.symm.trans (getElem?_set_same hu))⟩

/-- Settles O31: the bounds are kept by one LAD on its ladder and by every step on all of them. -/
theorem ladderStaysBounded : Obligations.LadderStaysBounded := by
  refine ⟨fun n d s1 s t u u' hu hfb hb h hu' => ?_, fun s t => step_keeps_ladders_bounded⟩
  have hb' : u'.bounded := by
    rcases exec_lad_own hu h hu' with rfl | ⟨hf, rfl⟩
    · exact hb
    · exact ladStep_bounded _ _ hfb hf hb
  exact ⟨hb', hb'.isFinite_stage⟩

end Sys2Proof.Machine
end

section
/-! PROOF. WT at phase 1.0 and at phase 0.0 (44_wavetable.md R245), and the reset state of the reference build
(70_reset_and_hazards.md R391). -/

namespace Sys2Proof.Machine

/-! ### The phase wraps -/

/-- The difference of finite words draws no NaN. -/
theorem fSub_finite_congr {nan a b : Word} (nan' : Word) (ha : isFinite a = true) (hb : isFinite b = true) :
    fSub nan a b = fSub nan' a b := by
  rw [fSub, fSub, fAdd_finite ha (by simpa using hb), fAdd_finite ha (by simpa using hb)]

/-- The wrap of a finite word draws no NaN. -/
theorem wrap_finite_congr {nan x : Word} (nan' : Word) (hx : isFinite x = true) : wrap nan x = wrap nan' x := by
  rw [wrap_finite hx, wrap_finite hx, fSub_finite_congr nan' hx (valueOf_floorF hx).1]

theorem wrap_one_eq_wrap_zero (nan : Word) : wrap nan 0x3F800000 = wrap nan 0x00000000 := by
  rw [wrap_finite_congr 0 (by decide), wrap_finite_congr (nan := nan) 0 (by decide)]
  decide +kernel

theorem wtSample_congr_wrap (b : Build) {nan : Nat → Word} (morph : Word) {ph ph' : Word}
    (h : wrap (nan 1) ph = wrap (nan 1) ph') : wtSample b nan morph ph = wtSample b nan morph ph' := by
  simp only [wtSample, phaseDecode, Nat.add_zero, h]

/-- Settles O38: the phase enters the sample through `wrap` alone. -/
theorem wavetableIsPeriodic : Obligations.WavetableIsPeriodic := by
  intro n d s1 s s0 t t0 h1 hs0 h h0 hn
  subst hs0
  obtain ⟨u, hu⟩ : ∃ u, s.wt[n]? = some u := ⟨_, List.getElem?_eq_getElem hn⟩
  have ht := (execWt_next (d := d) (s1 := s1) hu (by rw [h1]; decide)).symm.trans h
  have ht0 := (execWt_next (d := d) (s1 := s1) (s := s.putX s1 0) hu (by rw [State.putX_getX_same]; decide)).symm.trans h0
  rw [h1] at ht
  rw [State.putX_getX_same] at ht0
  cases ht
  cases ht0
  rw [State.drawn_getX, State.drawn_getX, State.putX_getX_same, State.putX_getX_same]
  exact wtSample_congr_wrap _ _ (wrap_one_eq_wrap_zero _)

/-! ### Reset -/

/-- QC after reset: `1.0 / maxF(1.0, HALF)` is 1.0, whatever NaN is drawn. -/
theorem svfResetDerived_qc (t : Trig) (nan : Nat → Word) (n : Nat) : (svfResetDerived t nan n).qc = 0x3F800000 := by
  have hmax : maxF svfReset.q halfF = oneF := by decide +kernel
  simp only [svfResetDerived, svfDerive, hmax]
  rw [fDiv_finite (by decide) (by decide) (by decide)]
  decide +kernel

/-- Settles O19, by evaluation but for QC. -/
theorem referenceResetState : Obligations.ReferenceResetState := by
  refine ⟨rfl, rfl, rfl, rfl, rfl, rfl, rfl, rfl, rfl, rfl, rfl, rfl, ?_, rfl, rfl, rfl, rfl, rfl, rfl, rfl⟩
  exact congrArg some (svfResetDerived_qc _ _ 0)

end Sys2Proof.Machine
end

section
/-! PROOF. What a command can do to the state, said once for all 23 commands, and how an invariant follows: a command's
effect, a hardware reset, and steps that touch no unit. -/

namespace Sys2Proof.Machine

/-! ### The effect of a command -/

/-- The next states of a command: an error is recorded, or the effect of one of the commands takes place. The value `v`
written to `d` is left open. -/
inductive Effect (s : State) : State → Prop
  | refuse (e : Err) (op : BitVec 6) : Effect s (s.record e op)
  | idle : Effect s s
  | reset : Effect s (softReset s)
  | prep {r : Word} (h : positiveSet r = true) : Effect s (((s.putSr r).putSvfs (deriveAll s r)).drawn)
  | pset {u n p : Nat} {v : Word} (ha : access u p = some .rw) (hl : s.legal u n p v = true) : Effect s (s.setParam u n p v)
  | read (d : Reg) (v : Word) : Effect s (s.putX d v)
  | compute (d : Reg) (v : Word) : Effect s ((s.putX d v).drawn)
  | svf {n : Nat} {u : Svf} (inp : Word) (d : Reg) (v : Word) (hu : s.svf[n]? = some u) :
      Effect s (((s.putSvf n (svfStep s.nan inp u)).putX d v).drawn)
  | lad {n : Nat} {u : Lad} (inp : Word) (d : Reg) (v : Word) (hu : s.lad[n]? = some u) :
      Effect s (((s.putLad n (ladStep s.build.trig s.nan inp u)).putX d v).drawn)
  | rev (inp : Word) (d : Reg) (v : Word) : Effect s (((s.putRev (revStep s.build s.nan inp s.rev).2).putX d v).drawn)
  | dly {n : Nat} {u : Dly} (inp : Word) (d : Reg) (v : Word) (hu : s.dly[n]? = some u) :
      Effect s (((s.putDly n (dlyStep s.nan inp u).2).putX d v).drawn)
  | dlysz {n m : Nat} {u : Dly} (hu : s.dly[n]? = some u) (h1 : 1 ≤ m) (h2 : m ≤ s.build.dlyMax) (h3 : m < 2 ^ 32) :
      Effect s (s.putDly n (dlyResize m u))
  | cho {n : Nat} {u : Cho} (inp : Word) (d : Reg) (v : Word) (hu : s.cho[n]? = some u) :
      Effect s (((s.putCho n (choStep s.build.trig s.nan s.sr inp u).2).putX d v).drawn)
  | fm {n : Nat} {u : Fm} (md car : Word) (d : Reg) (v : Word) (hu : s.fm[n]? = some u) :
      Effect s (((s.putFm n (fmStep s.build.trig s.nan s.sr md car u).2).putX d v).drawn)
  | ks {n : Nat} {u : Ks} (ex : Word) (d : Reg) (v : Word) (hu : s.ks[n]? = some u) :
      Effect s (((s.putKs n (ksStep s.nan ex u).2).putX d v).drawn)
  | ksf {n m : Nat} {u : Ks} (fq : Word) (hu : s.ks[n]? = some u) (h1 : 1 ≤ m) (h2 : m ≤ s.build.ksMax) :
      Effect s (s.putKs n (ksRetune fq m u))
  | env {n : Nat} {u : Env} (g : Bool) (d : Reg) (v : Word) (hu : s.env[n]? = some u) :
      Effect s (((s.putEnv n (envStep s.nan s.sr g u)).putX d v).drawn)
  | lfo {n : Nat} {u : Lfo} (d : Reg) (v : Word) (hu : s.lfo[n]? = some u) :
      Effect s (((s.putLfo n (lfoStep s.build.trig s.nan s.sr u).2).putX d v).drawn)

/-- A command of one unit and one sample operand has an effect when its accepted form has one. -/
theorem sampleCommand_effect {α : Type} {op : BitVec 6} {us : List α} {n : Nat} {r : Reg} {s t : State}
    {effect : α → Word → State} (h : (onInst op us n s fun u => onSample op r s fun v => .next (effect u v)) = .next t)
    (he : ∀ u v, us[n]? = some u → Effect s (effect u v)) : Effect s t := by
  rcases sampleCommand_next h with ⟨e, rfl⟩ | ⟨u, hu, -, rfl⟩
  · exact .refuse e op
  · exact he u _ hu

/-- A command of one unit has an effect when its body has one. -/
theorem onInst_effect {α : Type} {op : BitVec 6} {us : List α} {n : Nat} {s t : State} {body : α → Result}
    (h : onInst op us n s body = .next t) (hb : ∀ u, us[n]? = some u → body u = .next t → Effect s t) : Effect s t := by
  rcases onInst_next h with rfl | ⟨u, hu, h⟩
  · exact .refuse _ _
  · exact hb u hu h

/-- A command of one sample operand has an effect when its body has one. -/
theorem onSample_effect {op : BitVec 6} {r : Reg} {s t : State} {body : Word → Result}
    (h : onSample op r s body = .next t) (hb : ∀ v, body v = .next t → Effect s t) : Effect s t := by
  rcases onSample_next h with rfl | ⟨-, h⟩
  · exact .refuse _ _
  · exact hb _ h

theorem execPrep_effect {s1 : Reg} {s t : State} (h : execPrep s1 s = .next t) : Effect s t := by
  simp only [execPrep, raise_eq] at h
  split at h
  · next hp => cases h; exact .prep hp
  · cases h; exact .refuse _ _

theorem execPset_effect {n u p : Nat} {s1 : Reg} {s t : State} (h : execPset n s1 u p s = .next t) : Effect s t := by
  rcases execPset_cases h with ⟨e, rfl⟩ | ⟨ha, hl, rfl⟩
  · exact .refuse _ _
  · exact .pset ha hl

theorem execPget_effect {n u p : Nat} {d : Reg} {s t : State} (h : execPget n d u p s = .next t) : Effect s t := by
  simp only [execPget, raise_eq] at h
  split at h
  · cases h; exact .refuse _ _
  split at h
  · cases h; exact .refuse _ _
  split at h
  · cases h; exact .refuse _ _
  · cases h; exact .read _ _

theorem execDlysz_effect {n : Nat} {s1 : Reg} {s t : State} (h : execDlysz n s1 s = .next t) : Effect s t :=
  onInst_effect h fun u hu h => by
    simp only [raise_eq] at h
    split at h
    · cases h; exact .refuse _ _
    · next hm => cases h; exact .dlysz hu (by omega) (by omega) (s.getX s1).isLt

theorem execKsf_effect {n : Nat} {s1 : Reg} {s t : State} (h : execKsf n s1 s = .next t) : Effect s t :=
  onInst_effect h fun u hu h => by
    simp only [raise_eq] at h
    split at h
    · cases h; exact .refuse _ _
    split at h
    · cases h; exact .refuse _ _
    split at h
    · cases h; exact .refuse _ _
    · next hm => cases h; exact .ksf _ hu (by omega) (by omega)

/-- The only unit REV accepts is the reverb. -/
theorem execRev_effect {n : Nat} {d s1 : Reg} {s t : State} (h : execRev n d s1 s = .next t) : Effect s t :=
  sampleCommand_effect h fun r v hr => by
    obtain rfl : s.rev = r := List.mem_singleton.mp (List.mem_of_getElem? hr) ▸ rfl
    exact .rev v _ _

theorem execFm_effect {n : Nat} {d s1 s2 : Reg} {s t : State} (h : execFm n d s1 s2 s = .next t) : Effect s t :=
  onInst_effect h fun u hu h => onSample_effect h fun md h => onSample_effect h fun car h => by
    cases h; exact .fm md car _ _ hu

theorem execFadd_effect {d s1 s2 : Reg} {s t : State} (h : execFadd d s1 s2 s = .next t) : Effect s t :=
  onSample_effect h fun _ h => onSample_effect h fun _ h => by cases h; exact .compute _ _

theorem execFmul_effect {d s1 s2 : Reg} {s t : State} (h : execFmul d s1 s2 s = .next t) : Effect s t :=
  onSample_effect h fun _ h => onSample_effect h fun _ h => by cases h; exact .compute _ _

theorem execSclip_effect {d s1 : Reg} {s t : State} (h : execSclip d s1 s = .next t) : Effect s t :=
  onSample_effect h fun _ h => by cases h; exact .compute _ _

/-- Everything a command can do. -/
theorem exec_effect {i : Instr} {s t : State} (h : exec i s = .next t) : Effect s t := by
  cases i with
  | nop => cases h; exact .idle
  | reset => cases h; exact .reset
  | prep s1 => exact execPrep_effect h
  | pset n s1 u p => exact execPset_effect h
  | pget n d u p => exact execPget_effect h
  | svfLp n d s1 => exact sampleCommand_effect h fun _ v hu => .svf v _ _ hu
  | svfBp n d s1 => exact sampleCommand_effect h fun _ v hu => .svf v _ _ hu
  | svfHp n d s1 => exact sampleCommand_effect h fun _ v hu => .svf v _ _ hu
  | svfNotch n d s1 => exact sampleCommand_effect h fun _ v hu => .svf v _ _ hu
  | lad n d s1 => exact sampleCommand_effect h fun _ v hu => .lad v _ _ hu
  | rev n d s1 => exact execRev_effect h
  | dly n d s1 => exact sampleCommand_effect h fun _ v hu => .dly v _ _ hu
  | dlysz n s1 => exact execDlysz_effect h
  | cho n d s1 => exact sampleCommand_effect h fun _ v hu => .cho v _ _ hu
  | wt n d s1 => exact sampleCommand_effect h fun _ _ _ => .compute _ _
  | fm n d s1 s2 => exact execFm_effect h
  | ks n d s1 => exact sampleCommand_effect h fun _ v hu => .ks v _ _ hu
  | ksf n s1 => exact execKsf_effect h
  | env n d g => exact onInst_effect h fun _ hu h => by cases h; exact .env g _ _ hu
  | lfo n d => exact onInst_effect h fun _ hu h => by cases h; exact .lfo _ _ hu
  | fadd d s1 s2 => exact execFadd_effect h
  | fmul d s1 s2 => exact execFmul_effect h
  | sclip d s1 => exact execSclip_effect h

/-! ### Invariants of the units -/

/-- An access changes nothing but what `serve_sameBut` names. -/
theorem eq_update_of_sameBut {s t : State} (h : sameBut [.x, .status, .reads] s t) :
    t = { s with x := t.x, status := t.status, reads := t.reads } := by
  obtain ⟨⟩ := t
  congr 1
  exacts [h .cmd (by decide), h .sr (by decide), h .svf (by decide), h .lad (by decide), h .rev (by decide),
    h .dly (by decide), h .cho (by decide), h .wt (by decide), h .fm (by decide), h .ks (by decide), h .env (by decide),
    h .lfo (by decide), h .build (by decide), h .draws (by decide), h .host (by decide)]

/-- Starting a command and serving the accesses that overlap it touch no unit. -/
theorem startedFrom_eq (w : Word) (s : State) :
    startedFrom w s =
      { s with
        x := (startedFrom w s).x, cmd := w, status := (startedFrom w s).status, host := afterOverlap s.host
        reads := (startedFrom w s).reads } :=
  eq_update_of_sameBut (serveAll_sameBut _ _)

/-- A property of the units and the build that hardware reset and every command's effect keep is kept by every step. -/
theorem step_keeps {P : State → Prop}
    (hframe : ∀ {s x cmd st k es ws}, P s →
      P { s with x := x, cmd := cmd, status := st, draws := k, host := es, reads := ws })
    (hreset : ∀ {s}, P s → P (hardReset s)) (heffect : ∀ {s t}, P s → Effect s t → P t) {s t : State} (hs : P s)
    (h : step s = .next t) : P t := by
  rcases step_cases h with ⟨-, rfl⟩ | ⟨es, -, rfl⟩ | ⟨op, early, es, -, -, rfl⟩ | ⟨op, early, es, w, -, -, -, hrun⟩
  · exact hs
  · exact hreset (hframe hs)
  · rw [eq_update_of_sameBut (serve_sameBut op { s with host := es })]
    exact hframe (s := s) hs
  · have hstarted : P (startedFrom w { s with host := es }) := by
      rw [startedFrom_eq]
      exact hframe (s := s) hs
    rcases runCommand_cases hrun with ⟨i, u, -, hexec, rfl⟩ | ⟨r, -, rfl⟩
    · exact hframe (heffect hstarted (exec_effect hexec))
    · exact hframe (heffect hstarted (.refuse _ _))

end Sys2Proof.Machine
end

section
/-! PROOF. What every step keeps of the configuration (10_state.md R30) and of STATUS (R34), and the accesses served while a
command runs (R36). -/

namespace Sys2Proof.Machine

/-! ### The configuration -/

/-- Build constants and instance counts are the same. -/
def sameConfig (s t : State) : Prop :=
  t.build = s.build ∧ t.svf.length = s.svf.length ∧ t.lad.length = s.lad.length ∧ t.dly.length = s.dly.length ∧
  t.cho.length = s.cho.length ∧ t.wt.length = s.wt.length ∧ t.fm.length = s.fm.length ∧ t.ks.length = s.ks.length ∧
  t.env.length = s.env.length ∧ t.lfo.length = s.lfo.length

theorem sameConfig_refl (s : State) : sameConfig s s := ⟨rfl, rfl, rfl, rfl, rfl, rfl, rfl, rfl, rfl, rfl⟩

theorem sameConfig_trans {s t r : State} (h1 : sameConfig s t) (h2 : sameConfig t r) : sameConfig s r := by
  simp_all [sameConfig]

theorem setParam_sameConfig (s : State) (u n p : Nat) (v : Word) : sameConfig s (s.setParam u n p v) := by
  unfold State.setParam
  split <;> simp [sameConfig]

theorem hardReset_sameConfig (s : State) : sameConfig s (hardReset s) := by
  simp [sameConfig, hardReset, State.resetWith]

/-- A command replaces units one for one. -/
theorem effect_sameConfig {s t : State} (h : Effect s t) : sameConfig s t := by
  cases h with
  | pset => exact setParam_sameConfig ..
  | reset => simp [sameConfig, softReset]
  | prep => simp [sameConfig, deriveAll]
  | _ => simp [sameConfig]

/-- Settles O17: reset and every command keep the lengths, and nothing else touches a unit. -/
theorem stepKeepsConfiguration : Obligations.StepKeepsConfiguration := fun s _ h =>
  step_keeps (P := sameConfig s) (fun hs => hs) (fun hs => sameConfig_trans hs (hardReset_sameConfig _))
    (fun hs he => sameConfig_trans hs (effect_sameConfig he)) (sameConfig_refl s) h

/-! ### STATUS -/

/-- CAUSE and ERROP are 0 without an error, CAUSE is an error's code with one. -/
def Status.recorded (st : Status) : Prop :=
  (st.err = false → st.cause = 0 ∧ st.errop = 0) ∧ (st.err = true → ∃ e : Err, st.cause = e.code)

theorem recordError_recorded {st : Status} (e : Err) (op : BitVec 6) (h : st.recorded) :
    (recordError e op st).recorded := by
  unfold recordError
  split
  · exact h
  · exact ⟨fun he => (nomatch he), fun _ => ⟨e, rfl⟩⟩

theorem statusWrite_recorded {st : Status} (v : Word) (h : st.recorded) : (statusWrite v st).recorded := by
  unfold statusWrite
  split
  · exact ⟨fun _ => ⟨rfl, rfl⟩, fun he => nomatch he⟩
  · exact h

theorem serve_recorded {s : State} (op : BusOp) (h : s.status.recorded) : (serve op s).status.recorded := by
  rcases serve_status_cases op s with he | ⟨e, v, he⟩ | ⟨v, he⟩ <;> rw [he]
  · exact h
  · exact recordError_recorded e v h
  · exact statusWrite_recorded v h

theorem serveAll_recorded {ops : List BusOp} {s : State} (h : s.status.recorded) : (serveAll ops s).status.recorded := by
  induction ops generalizing s with
  | nil => exact h
  | cons op ops ih => exact ih (serve_recorded op h)

/-- A command does nothing to STATUS but record an error. -/
theorem effect_status {s t : State} (h : Effect s t) :
    t.status = s.status ∨ ∃ e op, t.status = recordError e op s.status := by
  cases h with
  | refuse e op => exact .inr ⟨e, op, rfl⟩
  | pset => unfold State.setParam; split <;> exact .inl rfl
  | _ => exact .inl rfl

theorem effect_recorded {s t : State} (h : Effect s t) (hs : s.status.recorded) : t.status.recorded := by
  rcases effect_status h with he | ⟨e, op, he⟩ <;> rw [he]
  · exact hs
  · exact recordError_recorded e op hs

/-- BUSY is 0 again after a command; each other step leaves it as it was. -/
theorem step_keeps_statusConsistent {s t : State} (hs : s.statusConsistent) (h : step s = .next t) :
    t.statusConsistent := by
  obtain ⟨hb, hr⟩ := hs
  rcases step_cases h with ⟨-, rfl⟩ | ⟨es, -, rfl⟩ | ⟨op, early, es, -, -, rfl⟩ | ⟨op, early, es, w, -, -, -, hrun⟩
  · exact ⟨hb, hr⟩
  · exact ⟨rfl, fun _ => ⟨rfl, rfl⟩, fun he => nomatch he⟩
  · exact ⟨(serve_busy op _).trans hb, serve_recorded op hr⟩
  · have hstarted : (startedFrom w { s with host := es }).status.recorded := serveAll_recorded hr
    rcases runCommand_cases hrun with ⟨i, u, -, hexec, rfl⟩ | ⟨r, -, rfl⟩
    · exact ⟨rfl, effect_recorded (t := u) (exec_effect hexec) hstarted⟩
    · exact ⟨rfl, recordError_recorded _ _ hstarted⟩

theorem Err.code_bounds (e : Err) : 1 ≤ e.code.toNat ∧ e.code.toNat ≤ 9 := by cases e <;> decide

/-- Settles O53. -/
theorem stepKeepsStatusConsistent : Obligations.StepKeepsStatusConsistent := by
  intro s t hs h
  have ht := step_keeps_statusConsistent hs h
  refine ⟨ht, fun herr => ?_⟩
  obtain ⟨e, he⟩ := ht.2.2 herr
  rw [he]
  exact e.code_bounds

/-! ### Accesses that overlap a command -/

/-- While BUSY is 1 an access reaches no data register. -/
theorem serve_sameBut_of_busy (op : BusOp) {s : State} (hb : s.status.busy = true) :
    sameBut [.status, .reads] s (serve op s) := by
  have hx : (serve op s).x = s.x := by
    cases op with
    | read o n =>
      simp only [serve, hostRead, hb, if_true]
      split
      · rfl
      · split <;> rfl
    | write o l =>
      simp only [serve, hostWrite, hb, if_true]
      split
      · rfl
      · split <;> rfl
  intro p hp
  by_cases hpx : p = .x
  · subst hpx; exact hx
  · exact serve_sameBut op s p (by simp_all)

theorem sameBut_trans {parts : List Part} {s t r : State} (h1 : sameBut parts s t) (h2 : sameBut parts t r) :
    sameBut parts s r := fun p hp => by
  have hst := h1 p hp
  have htr := h2 p hp
  cases p <;> exact htr.trans hst

theorem serveAll_sameBut_of_busy {ops : List BusOp} {s : State} (hb : s.status.busy = true) :
    sameBut [.status, .reads] s (serveAll ops s) := by
  induction ops generalizing s with
  | nil => exact fun p _ => by cases p <;> rfl
  | cons op ops ih => exact sameBut_trans (serve_sameBut_of_busy op hb) (ih ((serve_busy op s).trans hb))

theorem overlapping_append (ops : List BusOp) (es : List HostEvent) :
    overlapping (ops.map (fun o => .access o true) ++ es) = ops ++ overlapping es := by
  induction ops with
  | nil => rfl
  | cons op ops ih => exact congrArg (op :: ·) ih

theorem afterOverlap_append (ops : List BusOp) (es : List HostEvent) :
    afterOverlap (ops.map (fun o => .access o true) ++ es) = afterOverlap es := by
  induction ops with
  | nil => rfl
  | cons op ops ih => exact ih

theorem afterOverlap_of_none {es : List HostEvent} (h : overlapping es = []) : afterOverlap es = es := by
  unfold overlapping at h
  unfold afterOverlap
  split <;> simp_all

/-- A CMD write with BUSY = 0 runs its command. -/
theorem step_commandWrite {s : State} {w : Word} {early : Bool} {es : List HostEvent}
    (hh : s.host = .access (.write 0x40 (lanesOfWord w)) early :: es) (hb : s.status.busy = false) :
    step s = runCommand w { s with host := es } := by
  have hc : commandOf (.write 0x40 (lanesOfWord w)) = some w := by
    rw [commandOf, if_pos (by decide), wordOfLanes_lanesOfWord]
  simp only [step, nextEvent, hh, hb, hc]

/-- Settles O6: the marked accesses are exactly the ones served before the command. -/
theorem overlappedAccessesServedWhileBusy : Obligations.OverlappedAccessesServedWhileBusy := by
  intro s t w i early ops es hh hes hb hw hexec
  refine ⟨?_, ?_⟩
  · rw [step_commandWrite hh hb, runCommand, overlapping_append, afterOverlap_append, hes, afterOverlap_of_none hes,
      List.append_nil, execWord, hw]
    exact congrArg (mapNext finishCommand) hexec
  · have hserved := serveAll_sameBut_of_busy (ops := ops)
      (s := { s with host := es, cmd := w, status := { s.status with busy := true } }) rfl
    intro p hp
    have hsame := hserved p hp
    cases p
    case status | reads => exact absurd (by decide) hp
    all_goals exact hsame

end Sys2Proof.Machine
end

section
/-! PROOF. Sizes, cursors, indices and buffer memories stay sound (20_memory.md R81, 10_state.md R46 to R50): one lemma for each
operation of each unit that has a buffer. -/

namespace Sys2Proof.Machine

/-! ### One element of a list replaced -/

theorem forall_mem_set {α : Type} {P : α → Prop} {l : List α} {n : Nat} {u a : α} (h : ∀ v ∈ l, P v) (hu : l[n]? = some u)
    (ha : P u → P a) : ∀ v ∈ l.set n a, P v := fun v hv => by
  rcases List.mem_or_eq_of_mem_set hv with hv | rfl
  · exact h v hv
  · exact ha (h u (List.mem_of_getElem? hu))

theorem forall_mem_modify {α : Type} {P : α → Prop} {l : List α} {n : Nat} {f : α → α} (h : ∀ u ∈ l, P u)
    (hf : ∀ u, l[n]? = some u → P u → P (f u)) : ∀ u ∈ l.modify n f, P u := fun u hu => by
  obtain ⟨m, hm⟩ := List.mem_iff_getElem?.mp hu
  rw [List.getElem?_modify, Option.map_eq_map, Option.map_eq_some_iff] at hm
  obtain ⟨v, hv, rfl⟩ := hm
  split
  · next hnm => exact hf v (hnm ▸ hv) (h v (List.mem_of_getElem? hv))
  · exact h v (List.mem_of_getElem? hv)

/-! ### Memories -/

theorem Memory.sound_nil (n : Nat) : Memory.sound [] n := ⟨Memory.wf_nil, Memory.below_nil n⟩

theorem Memory.sound_bufWrite {m : Memory} {n i : Nat} (h : m.sound n) (hi : i < n) (v : Word) : (bufWrite m i v).sound n :=
  ⟨Memory.wf_bufWrite h.1 i v, Memory.below_bufWrite h.2 hi v⟩

theorem Memory.sound_bufClear {m : Memory} {n : Nat} (h : m.sound n) (k : Nat) : (bufClear m k).sound n :=
  ⟨Memory.wf_bufClear h.1 k, Memory.below_bufClear h.2 k⟩

/-! ### DLY -/

section
variable {b : Build} {u : Dly}

theorem dlyStep_sound (nan : Nat → Word) (inp : Word) (h : u.sound b) : (dlyStep nan inp u).2.sound b := by
  obtain ⟨h1, h2, h3, h4, h5⟩ := h
  exact ⟨h1, h2, h3, Nat.mod_lt _ (by omega), Memory.sound_bufWrite h5 (by omega) _⟩

theorem dlyResize_delay (m : Nat) (u : Dly) : (dlyResize m u).delay = min u.delay m := by
  simp only [dlyResize]
  split <;> omega

theorem dlyResize_sound {m : Nat} (h1 : 1 ≤ m) (h2 : m ≤ b.dlyMax) (h : u.sound b) : (dlyResize m u).sound b := by
  obtain ⟨hd, -, -, -, hbuf⟩ := h
  have hdelay := dlyResize_delay m u
  exact ⟨by omega, show (dlyResize m u).delay ≤ m by omega, h2, h1, Memory.sound_bufClear hbuf m⟩

theorem dlyClear_sound (h : u.sound b) : (dlyClear u).sound b := by
  obtain ⟨h1, h2, h3, -, h5⟩ := h
  exact ⟨h1, h2, h3, h1.trans h2, Memory.sound_bufClear h5 _⟩

theorem dlySet_sound {s : State} {n p : Nat} {v : Word} (hu : s.dly[n]? = some u) (hl : s.legal 4 n p v = true)
    (h : u.sound b) : (dlySet u p v).sound b := by
  obtain ⟨h1, h2, h3, h4, h5⟩ := h
  unfold dlySet
  split
  · simp only [State.legal, hu, Option.any_some, delaySet, Bool.and_eq_true, decide_eq_true_eq] at hl
    exact ⟨hl.1, hl.2, h3, h4, h5⟩
  all_goals exact ⟨h1, h2, h3, h4, h5⟩

theorem dlyReset_sound (hb : buildSound b) : (dlyReset b).sound b :=
  ⟨le_refl 1, hb.2.2.2.1.1, le_refl _, hb.2.2.2.1.1, Memory.sound_nil _⟩

end

/-! ### CHO -/

section
variable {u : Cho}

theorem choStep_sound (t : Trig) (nan : Nat → Word) (sr inp : Word) (h : u.sound) : (choStep t nan sr inp u).2.sound :=
  ⟨Nat.mod_lt _ (by decide), Memory.sound_bufWrite h.2 h.1 _⟩

theorem choClear_sound (u : Cho) : (choClear u).sound := ⟨Nat.zero_lt_succ _, Memory.sound_nil _⟩

theorem choSet_sound (p : Nat) (v : Word) (h : u.sound) : (choSet u p v).sound := by
  unfold choSet
  split <;> exact h

end

/-! ### KS -/

section
variable {b : Build} {u : Ks}

theorem ksStep_sound (nan : Nat → Word) (ex : Word) (h : u.sound b) : (ksStep nan ex u).2.sound b := by
  obtain ⟨h1, h2, h3, h4⟩ := h
  exact ⟨h1, h2, Nat.mod_lt _ h1, Memory.sound_bufWrite h4 (by omega) _⟩

theorem ksRetune_sound (fq : Word) {m : Nat} (h1 : 1 ≤ m) (h2 : m ≤ b.ksMax) (h : u.sound b) : (ksRetune fq m u).sound b := by
  unfold ksRetune
  split
  · exact h
  · exact ⟨h1, h2, h1, Memory.sound_bufClear h.2.2.2 m⟩

theorem ksClear_sound (h : u.sound b) : (ksClear u).sound b := by
  obtain ⟨h1, h2, -, h4⟩ := h
  exact ⟨h1, h2, h1, Memory.sound_bufClear h4 _⟩

theorem ksSet_sound (p : Nat) (v : Word) (h : u.sound b) : (ksSet u p v).sound b := by
  unfold ksSet
  split <;> exact h

theorem ksReset_sound (hb : buildSound b) : (ksReset b).sound b :=
  ⟨hb.2.2.2.2.1.1, le_refl _, hb.2.2.2.2.1.1, Memory.sound_nil _⟩

end

/-! ### REV -/

section
variable {b : Build} {u : Rev}

/-- REV stores one word in each comb, at its index, and advances the index. -/
theorem revStep_combs (nan : Nat → Word) (inp : Word) (c : Fin 8) :
    ∃ lo v, (revStep b nan inp u).2.combs[c] =
      { lo := lo, idx := (u.combs[c].idx + 1) % b.combLen[c], buf := bufWrite u.combs[c].buf u.combs[c].idx v } :=
  ⟨_, _, Vector.getElem_ofFn _⟩

/-- REV stores one word in each allpass, at its index, and advances the index. -/
theorem revStep_aps (nan : Nat → Word) (inp : Word) (a : Fin 4) :
    ∃ v, (revStep b nan inp u).2.aps[a] =
      { idx := (u.aps[a].idx + 1) % b.apLen[a], buf := bufWrite u.aps[a].buf u.aps[a].idx v } := by
  fin_cases a <;> exact ⟨_, rfl⟩

theorem revStep_sound (nan : Nat → Word) (inp : Word) (h : u.sound b) : (revStep b nan inp u).2.sound b := by
  refine ⟨fun c => ?_, fun a => ?_⟩
  · obtain ⟨hi, hbuf⟩ := h.1 c
    obtain ⟨lo, v, he⟩ := revStep_combs (b := b) (u := u) nan inp c
    rw [he]
    exact ⟨Nat.mod_lt _ (by omega), Memory.sound_bufWrite hbuf hi _⟩
  · obtain ⟨hi, hbuf⟩ := h.2 a
    obtain ⟨v, he⟩ := revStep_aps (b := b) (u := u) nan inp a
    rw [he]
    exact ⟨Nat.mod_lt _ (by omega), Memory.sound_bufWrite hbuf hi _⟩

theorem revSet_sound (p : Nat) (v : Word) (h : u.sound b) : (revSet u p v).sound b := by
  unfold revSet
  split <;> exact h

theorem combLen_pos (hb : buildSound b) (c : Fin 8) : 0 < b.combLen[c] :=
  (hb.2.2.2.2.2.1 _ (List.mem_append_left _ (Vector.mem_toList_iff.mpr (Vector.getElem_mem _)))).1

theorem apLen_pos (hb : buildSound b) (a : Fin 4) : 0 < b.apLen[a] :=
  (hb.2.2.2.2.2.1 _ (List.mem_append_right _ (Vector.mem_toList_iff.mpr (Vector.getElem_mem _)))).1

/-- A reverb whose indices are 0 and whose memories list nothing is sound; reset and RESET leave such a one. -/
theorem revClear_sound (hb : buildSound b) (u : Rev) : (revClear u).sound b := by
  refine ⟨fun c => ?_, fun a => ?_⟩
  · simpa [revClear] using ⟨combLen_pos hb c, Memory.sound_nil _⟩
  · simpa [revClear] using ⟨apLen_pos hb a, Memory.sound_nil _⟩

end

/-! ### Every step -/

theorem softReset_buffersSound {s : State} (h : s.buffersSound) : (softReset s).buffersSound := by
  obtain ⟨hb, -, hd, -, hk⟩ := h
  exact ⟨hb, revClear_sound hb _, List.forall_mem_map.mpr fun u hu => dlyClear_sound (hd u hu),
    List.forall_mem_map.mpr fun u _ => choClear_sound u, List.forall_mem_map.mpr fun u hu => ksClear_sound (hk u hu)⟩

theorem hardReset_buffersSound {s : State} (hb : buildSound s.build) : (hardReset s).buffersSound :=
  ⟨hb, revClear_sound hb revReset, List.forall_mem_replicate.mpr (.inr (dlyReset_sound hb)),
    List.forall_mem_replicate.mpr (.inr (choClear_sound choReset)), List.forall_mem_replicate.mpr (.inr (ksReset_sound hb))⟩

theorem setParam_buffersSound {s : State} {u n p : Nat} {v : Word} (hl : s.legal u n p v = true) (h : s.buffersSound) :
    (s.setParam u n p v).buffersSound := by
  obtain ⟨hb, hr, hd, hc, hk⟩ := h
  unfold State.setParam
  split
  case h_3 => exact ⟨hb, revSet_sound p v hr, hd, hc, hk⟩
  case h_4 => exact ⟨hb, hr, forall_mem_modify hd fun _ hu => dlySet_sound hu hl, hc, hk⟩
  case h_5 => exact ⟨hb, hr, hd, forall_mem_modify hc fun _ _ => choSet_sound p v, hk⟩
  case h_8 => exact ⟨hb, hr, hd, hc, forall_mem_modify hk fun _ _ => ksSet_sound p v⟩
  all_goals exact ⟨hb, hr, hd, hc, hk⟩

/-- A command keeps the buffers sound. -/
theorem effect_buffersSound {s t : State} (h : s.buffersSound) (he : Effect s t) : t.buffersSound := by
  obtain ⟨hb, hr, hd, hc, hk⟩ := h
  cases he with
  | reset => exact softReset_buffersSound ⟨hb, hr, hd, hc, hk⟩
  | pset ha hl => exact setParam_buffersSound hl ⟨hb, hr, hd, hc, hk⟩
  | rev inp d v => exact ⟨hb, revStep_sound _ inp hr, hd, hc, hk⟩
  | dly inp d v hu =>
    exact ⟨hb, hr, forall_mem_set hd hu (dlyStep_sound _ inp), hc, hk⟩
  | dlysz hu h1 h2 =>
    exact ⟨hb, hr, forall_mem_set hd hu (dlyResize_sound h1 h2), hc, hk⟩
  | cho inp d v hu =>
    exact ⟨hb, hr, hd, forall_mem_set hc hu (choStep_sound _ _ _ inp), hk⟩
  | ks ex d v hu =>
    exact ⟨hb, hr, hd, hc, forall_mem_set hk hu (ksStep_sound _ ex)⟩
  | ksf fq hu h1 h2 =>
    exact ⟨hb, hr, hd, hc, forall_mem_set hk hu (ksRetune_sound fq h1 h2)⟩
  | _ => exact ⟨hb, hr, hd, hc, hk⟩

/-- Settles O51. -/
theorem stepKeepsBuffersSound : Obligations.StepKeepsBuffersSound := fun _ _ hs h =>
  step_keeps (P := State.buffersSound) (fun hs => hs) (fun hs => hardReset_buffersSound hs.1) effect_buffersSound hs h

end Sys2Proof.Machine
end

section
/-! PROOF. The parameter tables of 10_state.md R41 to R52: what each number reads, its access and its legal set as an interval
of exact values. -/

namespace Sys2Proof.Machine

/-! ### Legal sets by value -/

section
variable {v : Word}

theorem fLe_zero_iff (h : isFinite v = true) : fLe zero v = true ↔ 0 ≤ valueOf v := by
  rw [zero_eq, fLe_iff (by decide) (isNaN_of_isFinite h), valueOf_zero]

theorem fLt_zero_iff (h : isFinite v = true) : fLt zero v = true ↔ 0 < valueOf v := by
  rw [zero_eq, fLt_iff (by decide) (isNaN_of_isFinite h), valueOf_zero]

theorem fLe_one_iff (h : isFinite v = true) : fLe v oneF = true ↔ valueOf v ≤ 1 := by
  rw [oneF_eq, fLe_iff (isNaN_of_isFinite h) (by decide), valueOf_one]

theorem fLt_one_iff (h : isFinite v = true) : fLt v oneF = true ↔ valueOf v < 1 := by
  rw [oneF_eq, fLt_iff (isNaN_of_isFinite h) (by decide), valueOf_one]

theorem fLt_negOne_iff (h : isFinite v = true) : fLt negOneF v = true ↔ -1 < valueOf v := by
  rw [show negOneF = negF 0x3F800000 from by decide, fLt_iff (by decide) (isNaN_of_isFinite h), valueOf_negF, valueOf_one]

theorem finiteSet_iff : finiteSet v = true ↔ isFinite v = true ∧ True := by simp [finiteSet]

theorem nonnegSet_iff : nonnegSet v = true ↔ isFinite v = true ∧ 0 ≤ valueOf v := by
  rw [nonnegSet, Bool.and_eq_true]
  exact and_congr_right fun h => fLe_zero_iff h

theorem positiveSet_iff : positiveSet v = true ↔ isFinite v = true ∧ 0 < valueOf v := by
  rw [positiveSet, Bool.and_eq_true]
  exact and_congr_right fun h => fLt_zero_iff h

theorem unitClosedSet_iff : unitClosedSet v = true ↔ isFinite v = true ∧ 0 ≤ valueOf v ∧ valueOf v ≤ 1 := by
  rw [unitClosedSet, Bool.and_eq_true, Bool.and_eq_true, and_assoc]
  exact and_congr_right fun h => and_congr (fLe_zero_iff h) (fLe_one_iff h)

theorem gainSet_iff : gainSet v = true ↔ isFinite v = true ∧ -1 < valueOf v ∧ valueOf v < 1 := by
  rw [gainSet, Bool.and_eq_true, Bool.and_eq_true, and_assoc]
  exact and_congr_right fun h => and_congr (fLt_negOne_iff h) (fLt_one_iff h)

theorem morphSet_iff {b : Build} (hb : buildSound b) :
    morphSet b.numTables v = true ↔ isFinite v = true ∧ 0 ≤ valueOf v ∧ valueOf v ≤ (b.numTables : ℚ) - 1 := by
  obtain ⟨⟨h1, h256⟩, -⟩ := hb
  obtain ⟨hf, hv⟩ := valueOf_toF (n := b.numTables - 1) (by omega)
  rw [morphSet, Bool.and_eq_true, Bool.and_eq_true, and_assoc]
  refine and_congr_right fun h => and_congr (fLe_zero_iff h) ?_
  rw [fLe_iff (isNaN_of_isFinite h) (isNaN_of_isFinite hf), hv, Nat.cast_sub h1, Nat.cast_one]

theorem delaySet_iff {size : Nat} : delaySet size v = true ↔ 1 ≤ v.toNat ∧ v.toNat ≤ size := by simp [delaySet]

end

/-- The read-write rows of a class, then its read-only rows, then none. -/
theorem getD_rows (rw ro p : Nat) :
    (List.replicate rw (some Access.rw) ++ List.replicate ro (some Access.ro)).getD p none =
      if p < rw then some .rw else if p < rw + ro then some .ro else none := by
  rw [List.getD_eq_getElem?_getD, List.getElem?_append]
  simp only [List.length_replicate, List.getElem?_replicate]
  split
  · rfl
  · by_cases hp : p < rw + ro
    · rw [if_pos hp, if_pos (by omega)]; rfl
    · rw [if_neg hp, if_neg (by omega)]; rfl

theorem access_of_class_ge {u p : Nat} (h : 11 ≤ u) : access u p = none := by
  obtain ⟨k, rfl⟩ := Nat.exists_eq_add_of_le' h
  rfl

/-- Settles O60. -/
theorem parameterAccessAndLegalSets : Obligations.ParameterAccessAndLegalSets := by
  refine ⟨fun u p => ?_, fun s n v => ?_⟩
  · intro row
    rcases Nat.lt_or_ge u 11 with hu | hu
    · interval_cases u <;> simp only [row, List.getD_cons_zero, List.getD_cons_succ, getD_rows] <;> rfl
    · simp [access_of_class_ge hu, List.getD_eq_getElem?_getD, hu]
  · exact ⟨⟨nonnegSet_iff, finiteSet_iff⟩, finiteSet_iff,
      ⟨unitOpenSet_iff, unitClosedSet_iff, unitClosedSet_iff, unitClosedSet_iff, gainSet_iff⟩,
      ⟨fun u hu => by rw [← delaySet_iff, State.legal, hu]; rfl, unitOpenSet_iff, unitClosedSet_iff⟩,
      ⟨nonnegSet_iff, nonnegSet_iff, nonnegSet_iff, unitClosedSet_iff, unitOpenSet_iff⟩, fun hb => morphSet_iff hb,
      ⟨finiteSet_iff, finiteSet_iff, finiteSet_iff, unitOpenSet_iff⟩, ⟨unitOpenSet_iff, unitOpenSet_iff⟩,
      ⟨positiveSet_iff, positiveSet_iff, unitClosedSet_iff, positiveSet_iff⟩, ⟨nonnegSet_iff, unitOpenSet_iff⟩⟩

/-! ### Numbers -/

section
variable {s : State} {n : Nat} (p : Nat)

theorem getParam_svf {u : Svf} (hu : s.svf[n]? = some u) : s.getParam 1 n p = svfGet u p := by simp [State.getParam, hu]
theorem getParam_lad {u : Lad} (hu : s.lad[n]? = some u) : s.getParam 2 n p = ladGet u p := by simp [State.getParam, hu]
theorem getParam_dly {u : Dly} (hu : s.dly[n]? = some u) : s.getParam 4 n p = dlyGet u p := by simp [State.getParam, hu]
theorem getParam_cho {u : Cho} (hu : s.cho[n]? = some u) : s.getParam 5 n p = choGet u p := by simp [State.getParam, hu]
theorem getParam_wt {u : Wt} (hu : s.wt[n]? = some u) : s.getParam 6 n p = wtGet u p := by simp [State.getParam, hu]
theorem getParam_fm {u : Fm} (hu : s.fm[n]? = some u) : s.getParam 7 n p = fmGet u p := by simp [State.getParam, hu]
theorem getParam_ks {u : Ks} (hu : s.ks[n]? = some u) : s.getParam 8 n p = ksGet u p := by simp [State.getParam, hu]
theorem getParam_env {u : Env} (hu : s.env[n]? = some u) : s.getParam 9 n p = envGet u p := by simp [State.getParam, hu]
theorem getParam_lfo {u : Lfo} (hu : s.lfo[n]? = some u) : s.getParam 10 n p = lfoGet u p := by simp [State.getParam, hu]

theorem getParam_of_class_ge {u : Nat} (hu : 11 ≤ u) : s.getParam u n p = none := by
  obtain ⟨k, rfl⟩ := Nat.exists_eq_add_of_le' hu
  rfl

end

section
variable (p : Nat)

theorem glbGet_eq (s : State) :
    glbGet s p = [s.sr, uWord s.build.numTables, uWord s.build.tableSize, uWord Config.choSize, uWord s.build.dlyMax,
      uWord s.build.ksMax][p]? := by
  rcases p with _ | _ | _ | _ | _ | _ | p <;> rfl

theorem svfGet_eq (u : Svf) : svfGet u p = [u.fc, u.q, u.f, u.qc, u.low, u.band, u.high, u.notch][p]? := by
  rcases p with _ | _ | _ | _ | _ | _ | _ | _ | p <;> rfl

theorem ladGet_eq (u : Lad) :
    ladGet u p =
      [u.fb, u.stage[0], u.stage[1], u.stage[2], u.stage[3], u.delay[0], u.delay[1], u.delay[2], u.delay[3]][p]? := by
  rcases p with _ | _ | _ | _ | _ | _ | _ | _ | _ | p <;> rfl

theorem dlyGet_eq (u : Dly) : dlyGet u p = [uWord u.delay, u.fb, u.mix, uWord u.size, uWord u.wptr][p]? := by
  rcases p with _ | _ | _ | _ | _ | p <;> rfl

theorem choGet_eq (u : Cho) : choGet u p = [u.rate, u.depth, u.base, u.mix, u.lfoph, uWord u.wptr][p]? := by
  rcases p with _ | _ | _ | _ | _ | _ | p <;> rfl

theorem wtGet_eq (u : Wt) : wtGet u p = [u.morph][p]? := by rcases p with _ | p <;> rfl

theorem fmGet_eq (u : Fm) : fmGet u p = [u.ratio, u.amp, u.fbk, u.phase, u.last][p]? := by
  rcases p with _ | _ | _ | _ | _ | p <;> rfl

theorem ksGet_eq (u : Ks) : ksGet u p = [u.fb, u.damp, uWord u.size, uWord u.cursor, u.last, u.freq][p]? := by
  rcases p with _ | _ | _ | _ | _ | _ | p <;> rfl

theorem envGet_eq (u : Env) : envGet u p = [u.att, u.dec, u.sus, u.rel, u.level, uWord u.stage.code][p]? := by
  rcases p with _ | _ | _ | _ | _ | _ | p <;> rfl

theorem lfoGet_eq (u : Lfo) : lfoGet u p = [u.rate, u.phase][p]? := by rcases p with _ | _ | p <;> rfl

/-- The rows of REV, block by block. -/
theorem revGet_eq (b : Build) (u : Rev) :
    revGet b u p =
      ([u.fb, u.room, u.damp, u.wet, u.apfb] ++ u.combs.toList.map (·.lo) ++ u.combs.toList.map (uWord ·.idx) ++
        u.aps.toList.map (uWord ·.idx) ++ b.combLen.toList.map uWord ++ b.apLen.toList.map uWord)[p]? := by
  unfold revGet
  split_ifs <;>
    simp (disch := omega) only [List.getElem?_append, List.length_append, List.length_map, Vector.length_toList,
      List.length_cons, List.length_nil, Nat.reduceAdd, if_pos, if_neg, List.getElem?_map, Vector.getElem?_toList,
      Vector.getElem?_eq_none, Option.map_none]

end

/-- Settles O59. -/
theorem parameterNumbersNameFields : Obligations.ParameterNumbersNameFields := by
  intro s n p
  refine ⟨rfl, glbGet_eq p s, fun u hu => ?_, fun u hu => ?_, revGet_eq p s.build s.rev, fun u hu => ?_, fun u hu => ?_,
    fun u hu => ?_, fun u hu => ?_, fun u hu => ?_, fun u hu => ?_, fun u hu => ?_, fun u hu => getParam_of_class_ge p hu⟩
  · exact (getParam_svf p hu).trans (svfGet_eq p u)
  · exact (getParam_lad p hu).trans (ladGet_eq p u)
  · exact (getParam_dly p hu).trans (dlyGet_eq p u)
  · exact (getParam_cho p hu).trans (choGet_eq p u)
  · exact (getParam_wt p hu).trans (wtGet_eq p u)
  · exact (getParam_fm p hu).trans (fmGet_eq p u)
  · exact (getParam_ks p hu).trans (ksGet_eq p u)
  · refine (getParam_env p hu).trans ((envGet_eq p u).trans ?_)
    cases u.stage <;> rfl
  · exact (getParam_lfo p hu).trans (lfoGet_eq p u)

end Sys2Proof.Machine
end

section
/-! PROOF. No RW parameter can hold an illegal value (10_state.md R40). Legality of the whole state is legality of each unit, and
each operation of a unit keeps its own. -/

namespace Sys2Proof.Machine

/-! ### Legal units -/

/-- FC and Q (R43). -/
abbrev Svf.legal (u : Svf) : Prop := nonnegSet u.fc = true ∧ finiteSet u.q = true

/-- FB (R44). -/
abbrev Lad.legal (u : Lad) : Prop := finiteSet u.fb = true

/-- FB, ROOM, DAMP, WET and APFB (R45). -/
abbrev Rev.legal (u : Rev) : Prop :=
  unitOpenSet u.fb = true ∧ unitClosedSet u.room = true ∧ unitClosedSet u.damp = true ∧ unitClosedSet u.wet = true ∧
  gainSet u.apfb = true

/-- DELAY, FB and MIX (R46). -/
abbrev Dly.legal (u : Dly) : Prop :=
  delaySet u.size (uWord u.delay) = true ∧ unitOpenSet u.fb = true ∧ unitClosedSet u.mix = true

/-- RATE, DEPTH, BASE, MIX and LFOPH (R47). -/
abbrev Cho.legal (u : Cho) : Prop :=
  nonnegSet u.rate = true ∧ nonnegSet u.depth = true ∧ nonnegSet u.base = true ∧ unitClosedSet u.mix = true ∧
  unitOpenSet u.lfoph = true

/-- MORPH (R48). -/
abbrev Wt.legal (numTables : Nat) (u : Wt) : Prop := morphSet numTables u.morph = true

/-- RATIO, AMP, FBK and PHASE (R49). -/
abbrev Fm.legal (u : Fm) : Prop :=
  finiteSet u.ratio = true ∧ finiteSet u.amp = true ∧ finiteSet u.fbk = true ∧ unitOpenSet u.phase = true

/-- FB and DAMP (R50). -/
abbrev Ks.legal (u : Ks) : Prop := unitOpenSet u.fb = true ∧ unitOpenSet u.damp = true

/-- ATT, DEC, SUS and REL (R51). -/
abbrev Env.legal (u : Env) : Prop :=
  positiveSet u.att = true ∧ positiveSet u.dec = true ∧ unitClosedSet u.sus = true ∧ positiveSet u.rel = true

/-- RATE and PHASE (R52). -/
abbrev Lfo.legal (u : Lfo) : Prop := nonnegSet u.rate = true ∧ unitOpenSet u.phase = true

/-- Every unit is legal, and so is SR. -/
structure State.unitsLegal (s : State) : Prop where
  sr  : positiveSet s.sr = true
  svf : ∀ u ∈ s.svf, u.legal
  lad : ∀ u ∈ s.lad, u.legal
  rev : s.rev.legal
  dly : ∀ u ∈ s.dly, u.legal
  cho : ∀ u ∈ s.cho, u.legal
  wt  : ∀ u ∈ s.wt, u.legal s.build.numTables
  fm  : ∀ u ∈ s.fm, u.legal
  ks  : ∀ u ∈ s.ks, u.legal
  env : ∀ u ∈ s.env, u.legal
  lfo : ∀ u ∈ s.lfo, u.legal

/-! ### Legality of the state is legality of its units -/

/-- The unit a parameter is read from, with what is known of every unit of the list. -/
theorem exists_unit_of_bind {α : Type} {us : List α} {P : α → Prop} {n : Nat} {get : α → Option Word} {v : Word}
    (hP : ∀ u ∈ us, P u) (h : us[n]?.bind get = some v) : ∃ u, us[n]? = some u ∧ P u ∧ get u = some v := by
  obtain ⟨u, hu, hg⟩ := Option.bind_eq_some_iff.mp h
  exact ⟨u, hu, hP u (List.mem_of_getElem? hu), hg⟩

/-- A property shown at every index holds of every unit of the list. -/
theorem forall_mem_of_getElem? {α : Type} {us : List α} {P : α → Prop} (h : ∀ (n : Nat) u, us[n]? = some u → P u) :
    ∀ u ∈ us, P u := fun u hu => by
  obtain ⟨n, hn⟩ := List.mem_iff_getElem?.mp hu
  exact h n u hn

theorem unitsLegal_of_paramsLegal {s : State} (h : s.paramsLegal) : s.unitsLegal := by
  obtain ⟨hsr, hp⟩ := h
  refine ⟨hsr, forall_mem_of_getElem? fun n u hu => ?_, forall_mem_of_getElem? fun n u hu => ?_, ?_,
    forall_mem_of_getElem? fun n u hu => ?_, forall_mem_of_getElem? fun n u hu => ?_,
    forall_mem_of_getElem? fun n u hu => ?_, forall_mem_of_getElem? fun n u hu => ?_,
    forall_mem_of_getElem? fun n u hu => ?_, forall_mem_of_getElem? fun n u hu => ?_,
    forall_mem_of_getElem? fun n u hu => ?_⟩
  · exact ⟨hp 1 n 0 _ rfl (getParam_svf 0 hu), hp 1 n 1 _ rfl (getParam_svf 1 hu)⟩
  · exact hp 2 n 0 _ rfl (getParam_lad 0 hu)
  · exact ⟨hp 3 0 0 _ rfl rfl, hp 3 0 1 _ rfl rfl, hp 3 0 2 _ rfl rfl, hp 3 0 3 _ rfl rfl, hp 3 0 4 _ rfl rfl⟩
  · have hdelay := hp 4 n 0 _ rfl (getParam_dly 0 hu)
    rw [State.legal, hu] at hdelay
    exact ⟨hdelay, hp 4 n 1 _ rfl (getParam_dly 1 hu), hp 4 n 2 _ rfl (getParam_dly 2 hu)⟩
  · exact ⟨hp 5 n 0 _ rfl (getParam_cho 0 hu), hp 5 n 1 _ rfl (getParam_cho 1 hu), hp 5 n 2 _ rfl (getParam_cho 2 hu),
      hp 5 n 3 _ rfl (getParam_cho 3 hu), hp 5 n 4 _ rfl (getParam_cho 4 hu)⟩
  · exact hp 6 n 0 _ rfl (getParam_wt 0 hu)
  · exact ⟨hp 7 n 0 _ rfl (getParam_fm 0 hu), hp 7 n 1 _ rfl (getParam_fm 1 hu), hp 7 n 2 _ rfl (getParam_fm 2 hu),
      hp 7 n 3 _ rfl (getParam_fm 3 hu)⟩
  · exact ⟨hp 8 n 0 _ rfl (getParam_ks 0 hu), hp 8 n 1 _ rfl (getParam_ks 1 hu)⟩
  · exact ⟨hp 9 n 0 _ rfl (getParam_env 0 hu), hp 9 n 1 _ rfl (getParam_env 1 hu), hp 9 n 2 _ rfl (getParam_env 2 hu),
      hp 9 n 3 _ rfl (getParam_env 3 hu)⟩
  · exact ⟨hp 10 n 0 _ rfl (getParam_lfo 0 hu), hp 10 n 1 _ rfl (getParam_lfo 1 hu)⟩

/-- The converse: an RW number is one of the first five, so it names one of the fields above. -/
theorem paramsLegal_of_unitsLegal {s : State} (h : s.unitsLegal) : s.paramsLegal := by
  refine ⟨h.sr, fun c n p v ha hv => ?_⟩
  obtain ⟨hc, hp⟩ := access_rw_lt ha
  interval_cases c
  · simp [access] at ha
  · obtain ⟨u, hu, hl, hg⟩ := exists_unit_of_bind h.svf hv
    interval_cases p <;> simp_all [access, Svf.legal, svfGet, State.legal]
  · obtain ⟨u, hu, hl, hg⟩ := exists_unit_of_bind h.lad hv
    interval_cases p <;> simp_all [access, Lad.legal, ladGet, State.legal]
  · have hl := h.rev
    have hg : revGet s.build s.rev p = some v := hv
    interval_cases p <;> simp_all [access, Rev.legal, revGet, State.legal]
  · obtain ⟨u, hu, hl, hg⟩ := exists_unit_of_bind h.dly hv
    interval_cases p <;> simp_all [access, Dly.legal, dlyGet, State.legal]
  · obtain ⟨u, hu, hl, hg⟩ := exists_unit_of_bind h.cho hv
    interval_cases p <;> simp_all [access, Cho.legal, choGet, State.legal]
  · obtain ⟨u, hu, hl, hg⟩ := exists_unit_of_bind h.wt hv
    interval_cases p <;> simp_all [access, Wt.legal, wtGet, State.legal]
  · obtain ⟨u, hu, hl, hg⟩ := exists_unit_of_bind h.fm hv
    interval_cases p <;> simp_all [access, Fm.legal, fmGet, State.legal]
  · obtain ⟨u, hu, hl, hg⟩ := exists_unit_of_bind h.ks hv
    interval_cases p <;> simp_all [access, Ks.legal, ksGet, State.legal]
  · obtain ⟨u, hu, hl, hg⟩ := exists_unit_of_bind h.env hv
    interval_cases p <;> simp_all [access, Env.legal, envGet, State.legal]
  · obtain ⟨u, hu, hl, hg⟩ := exists_unit_of_bind h.lfo hv
    interval_cases p <;> simp_all [access, Lfo.legal, lfoGet, State.legal]

theorem paramsLegal_iff (s : State) : s.paramsLegal ↔ s.unitsLegal := ⟨unitsLegal_of_paramsLegal, paramsLegal_of_unitsLegal⟩

/-! ### PSET stores a legal value -/

section
variable {s : State} {n p : Nat} {v : Word}

theorem svfSet_legal {u : Svf} (hv : s.legal 1 n p v = true) (h : u.legal) : (svfSet s u p v).legal := by
  obtain ⟨h0, h1⟩ := h
  unfold svfSet
  split
  · exact ⟨hv, h1⟩
  · exact ⟨h0, hv⟩
  · exact ⟨h0, h1⟩

theorem ladSet_legal {u : Lad} (hv : s.legal 2 n p v = true) (h : u.legal) : (ladSet u p v).legal := by
  unfold ladSet
  split
  · exact hv
  · exact h

theorem revSet_legal {u : Rev} (hv : s.legal 3 n p v = true) (h : u.legal) : (revSet u p v).legal := by
  obtain ⟨h0, h1, h2, h3, h4⟩ := h
  unfold revSet
  split
  · exact ⟨hv, h1, h2, h3, h4⟩
  · exact ⟨h0, hv, h2, h3, h4⟩
  · exact ⟨h0, h1, hv, h3, h4⟩
  · exact ⟨h0, h1, h2, hv, h4⟩
  · exact ⟨h0, h1, h2, h3, hv⟩
  · exact ⟨h0, h1, h2, h3, h4⟩

theorem dlySet_legal {u : Dly} (hu : s.dly[n]? = some u) (hv : s.legal 4 n p v = true) (h : u.legal) :
    (dlySet u p v).legal := by
  obtain ⟨h0, h1, h2⟩ := h
  unfold dlySet
  split
  · rw [State.legal, hu] at hv
    exact ⟨by rw [uWord, BitVec.ofNat_toNat, BitVec.setWidth_eq]; exact hv, h1, h2⟩
  · exact ⟨h0, hv, h2⟩
  · exact ⟨h0, h1, hv⟩
  · exact ⟨h0, h1, h2⟩

theorem choSet_legal {u : Cho} (hv : s.legal 5 n p v = true) (h : u.legal) : (choSet u p v).legal := by
  obtain ⟨h0, h1, h2, h3, h4⟩ := h
  unfold choSet
  split
  · exact ⟨hv, h1, h2, h3, h4⟩
  · exact ⟨h0, hv, h2, h3, h4⟩
  · exact ⟨h0, h1, hv, h3, h4⟩
  · exact ⟨h0, h1, h2, hv, h4⟩
  · exact ⟨h0, h1, h2, h3, hv⟩
  · exact ⟨h0, h1, h2, h3, h4⟩

theorem wtSet_legal {u : Wt} (hv : s.legal 6 n p v = true) (h : u.legal s.build.numTables) :
    (wtSet u p v).legal s.build.numTables := by
  unfold wtSet
  split
  · exact hv
  · exact h

theorem fmSet_legal {u : Fm} (hv : s.legal 7 n p v = true) (h : u.legal) : (fmSet u p v).legal := by
  obtain ⟨h0, h1, h2, h3⟩ := h
  unfold fmSet
  split
  · exact ⟨hv, h1, h2, h3⟩
  · exact ⟨h0, hv, h2, h3⟩
  · exact ⟨h0, h1, hv, h3⟩
  · exact ⟨h0, h1, h2, hv⟩
  · exact ⟨h0, h1, h2, h3⟩

theorem ksSet_legal {u : Ks} (hv : s.legal 8 n p v = true) (h : u.legal) : (ksSet u p v).legal := by
  obtain ⟨h0, h1⟩ := h
  unfold ksSet
  split
  · exact ⟨hv, h1⟩
  · exact ⟨h0, hv⟩
  · exact ⟨h0, h1⟩

theorem envSet_legal {u : Env} (hv : s.legal 9 n p v = true) (h : u.legal) : (envSet u p v).legal := by
  obtain ⟨h0, h1, h2, h3⟩ := h
  unfold envSet
  split
  · exact ⟨hv, h1, h2, h3⟩
  · exact ⟨h0, hv, h2, h3⟩
  · exact ⟨h0, h1, hv, h3⟩
  · exact ⟨h0, h1, h2, hv⟩
  · exact ⟨h0, h1, h2, h3⟩

theorem lfoSet_legal {u : Lfo} (hv : s.legal 10 n p v = true) (h : u.legal) : (lfoSet u p v).legal := by
  obtain ⟨h0, h1⟩ := h
  unfold lfoSet
  split
  · exact ⟨hv, h1⟩
  · exact ⟨h0, hv⟩
  · exact ⟨h0, h1⟩

theorem setParam_unitsLegal {u : Nat} (hv : s.legal u n p v = true) (h : s.unitsLegal) : (s.setParam u n p v).unitsLegal := by
  unfold State.setParam
  split
  · exact { h with svf := forall_mem_modify h.svf fun _ _ => svfSet_legal hv }
  · exact { h with lad := forall_mem_modify h.lad fun _ _ => ladSet_legal hv }
  · exact { h with rev := revSet_legal hv h.rev }
  · exact { h with dly := forall_mem_modify h.dly fun _ hu => dlySet_legal hu hv }
  · exact { h with cho := forall_mem_modify h.cho fun _ _ => choSet_legal hv }
  · exact { h with wt := forall_mem_modify h.wt fun _ _ => wtSet_legal hv }
  · exact { h with fm := forall_mem_modify h.fm fun _ _ => fmSet_legal hv }
  · exact { h with ks := forall_mem_modify h.ks fun _ _ => ksSet_legal hv }
  · exact { h with env := forall_mem_modify h.env fun _ _ => envSet_legal hv }
  · exact { h with lfo := forall_mem_modify h.lfo fun _ _ => lfoSet_legal hv }
  · exact h

end

/-! ### What a command keeps or sets of a unit's parameters -/

section
variable (t : Trig) (nan : Nat → Word) (sr inp : Word)

theorem svfDerive_legal {u : Svf} (h : u.legal) : (svfDerive t nan sr u).legal := h

theorem svfStep_legal {u : Svf} (h : u.legal) : (svfStep nan inp u).legal := h

theorem ladStep_legal {u : Lad} (h : u.legal) : (ladStep t nan inp u).legal := h

theorem revStep_legal (b : Build) {u : Rev} (h : u.legal) : (revStep b nan inp u).2.legal := h

theorem dlyStep_legal {u : Dly} (h : u.legal) : (dlyStep nan inp u).2.legal := h

/-- The clamp of DLYSZ. A DELAY at or below the new SIZE is below 2^32, its own pattern. -/
theorem dlyResize_legal {m : Nat} {u : Dly} (h1 : 1 ≤ m) (hm : m < 2 ^ 32) (h : u.legal) : (dlyResize m u).legal := by
  obtain ⟨hd, hfb, hmix⟩ := h
  rw [delaySet_iff, uWord, BitVec.toNat_ofNat] at hd
  refine ⟨?_, hfb, hmix⟩
  rw [delaySet_iff, uWord, BitVec.toNat_ofNat, dlyResize_delay, Nat.mod_eq_of_lt (by omega)]
  refine ⟨?_, min_le_right _ _⟩
  by_contra hzero
  simp [show u.delay = 0 by omega] at hd

theorem choStep_legal {u : Cho} (h : u.legal) : (choStep t nan sr inp u).2.legal := by
  obtain ⟨h0, h1, h2, h3, -⟩ := h
  exact ⟨h0, h1, h2, h3, wrap_mem_unit _ _⟩

theorem fmStep_legal (md car : Word) {u : Fm} (h : u.legal) : (fmStep t nan sr md car u).2.legal := by
  obtain ⟨h0, h1, h2, -⟩ := h
  exact ⟨h0, h1, h2, wrap_mem_unit _ _⟩

theorem ksStep_legal {u : Ks} (h : u.legal) : (ksStep nan inp u).2.legal := h

theorem ksRetune_legal (fq : Word) (m : Nat) {u : Ks} (h : u.legal) : (ksRetune fq m u).legal := by
  unfold ksRetune
  split <;> exact h

theorem envStep_legal (g : Bool) {u : Env} (h : u.legal) : (envStep nan sr g u).legal := h

theorem lfoStep_legal {u : Lfo} (h : u.legal) : (lfoStep t nan sr u).2.legal := ⟨h.1, wrap_mem_unit _ _⟩

end

/-! ### Resets -/

theorem unitOpenSet_zero : unitOpenSet zero = true := by decide

theorem softReset_unitsLegal {s : State} (h : s.unitsLegal) : (softReset s).unitsLegal where
  sr := h.sr
  svf := List.forall_mem_map.mpr h.svf
  lad := List.forall_mem_map.mpr h.lad
  rev := h.rev
  dly := List.forall_mem_map.mpr h.dly
  cho := List.forall_mem_map.mpr fun u hu => by
    obtain ⟨h0, h1, h2, h3, -⟩ := h.cho u hu
    exact ⟨h0, h1, h2, h3, unitOpenSet_zero⟩
  wt := h.wt
  fm := List.forall_mem_map.mpr fun u hu => by
    obtain ⟨h0, h1, h2, -⟩ := h.fm u hu
    exact ⟨h0, h1, h2, unitOpenSet_zero⟩
  ks := List.forall_mem_map.mpr h.ks
  env := List.forall_mem_map.mpr h.env
  lfo := List.forall_mem_map.mpr fun u hu => ⟨(h.lfo u hu).1, unitOpenSet_zero⟩

theorem svfReset_legal : svfReset.legal := by decide

theorem srReset_positive : positiveSet srReset = true := by decide

theorem revReset_legal : revReset.legal := by decide

theorem dlyReset_legal {b : Build} (hb : buildSound b) : (dlyReset b).legal :=
  ⟨delaySet_iff.mpr ⟨le_refl 1, hb.2.2.2.1.1⟩, unitOpenSet_zero, show unitClosedSet 0x3F000000 = true by decide⟩

theorem wtReset_legal {b : Build} (hb : buildSound b) : wtReset.legal b.numTables := by
  have h1 : (1 : ℚ) ≤ b.numTables := by exact_mod_cast hb.1.1
  refine (morphSet_iff hb).mpr ⟨by decide, ?_⟩
  rw [wtReset, valueOf_zero]
  exact ⟨le_refl 0, by linarith⟩

theorem ksReset_legal (b : Build) : (ksReset b).legal :=
  ⟨show unitOpenSet 0x3F7D70A4 = true by decide, show unitOpenSet 0x3F000000 = true by decide⟩

/-- Every hardware reset value is legal, DELAY and MORPH by the constraints of R6. -/
theorem hardReset_unitsLegal {s : State} (hb : buildSound s.build) : (hardReset s).unitsLegal where
  sr := srReset_positive
  svf := List.forall_mem_map.mpr fun _ _ => svfDerive_legal _ _ _ svfReset_legal
  lad := List.forall_mem_replicate.mpr (.inr (by decide))
  rev := revReset_legal
  dly := List.forall_mem_replicate.mpr (.inr (dlyReset_legal hb))
  cho := List.forall_mem_replicate.mpr (.inr (by decide))
  wt := List.forall_mem_replicate.mpr (.inr (wtReset_legal hb))
  fm := List.forall_mem_replicate.mpr (.inr (by decide))
  ks := List.forall_mem_replicate.mpr (.inr (ksReset_legal s.build))
  env := List.forall_mem_replicate.mpr (.inr (by decide))
  lfo := List.forall_mem_replicate.mpr (.inr (by decide))

/-! ### Every step -/

/-- A command keeps every unit legal. -/
theorem effect_unitsLegal {s t : State} (h : s.unitsLegal) (he : Effect s t) : t.unitsLegal := by
  cases he with
  | refuse => exact { h with }
  | idle => exact h
  | reset => exact softReset_unitsLegal h
  | prep hp =>
    refine { h with sr := hp, svf := fun u hu => ?_ }
    obtain ⟨n, hn, rfl⟩ := List.mem_mapIdx.mp hu
    exact svfDerive_legal _ _ _ (h.svf _ (List.getElem_mem hn))
  | pset _ hv => exact setParam_unitsLegal hv h
  | read => exact { h with }
  | compute => exact { h with }
  | svf inp d v hu => exact { h with svf := forall_mem_set h.svf hu (svfStep_legal _ inp) }
  | lad inp d v hu => exact { h with lad := forall_mem_set h.lad hu (ladStep_legal _ _ inp) }
  | rev inp d v => exact { h with rev := revStep_legal _ inp _ h.rev }
  | dly inp d v hu => exact { h with dly := forall_mem_set h.dly hu (dlyStep_legal _ inp) }
  | dlysz hu h1 h2 hm => exact { h with dly := forall_mem_set h.dly hu (dlyResize_legal h1 hm) }
  | cho inp d v hu => exact { h with cho := forall_mem_set h.cho hu (choStep_legal _ _ _ inp) }
  | fm md car d v hu => exact { h with fm := forall_mem_set h.fm hu (fmStep_legal _ _ _ md car) }
  | ks ex d v hu => exact { h with ks := forall_mem_set h.ks hu (ksStep_legal _ ex) }
  | ksf fq hu => exact { h with ks := forall_mem_set h.ks hu (ksRetune_legal fq _) }
  | env g d v hu => exact { h with env := forall_mem_set h.env hu (envStep_legal _ _ g) }
  | lfo d v hu => exact { h with lfo := forall_mem_set h.lfo hu (lfoStep_legal _ _ _) }

/-- Settles O52. -/
theorem stepKeepsParametersLegal : Obligations.StepKeepsParametersLegal := by
  intro s t hb hs h
  have hkeep := step_keeps (P := fun s => buildSound s.build ∧ s.unitsLegal) (fun hs => ⟨hs.1, { hs.2 with }⟩)
    (fun hs => ⟨hs.1, hardReset_unitsLegal hs.1⟩)
    (fun hs he => ⟨(effect_sameConfig he).1 ▸ hs.1, effect_unitsLegal hs.2 he⟩) ⟨hb, (paramsLegal_iff s).mp hs⟩ h
  exact (paramsLegal_iff t).mpr hkeep.2

end Sys2Proof.Machine
end

section
/-! PROOF. The STATUS word (10_state.md R34) and the host register window while no command runs (20_memory.md R84, R85). -/

namespace Sys2Proof.Machine

/-! ### STATUS -/

/-- Settles O13: the word field by field, the two cases of the write. -/
theorem statusFields : Obligations.StatusFields := by
  intro st v
  have field : ∀ {w : Nat} (k : Nat) (f : BitVec w), (∀ i < w, (statusWord st).getLsbD (k + i) = f.getLsbD i) →
      (statusWord st).extractLsb' k w = f := fun k f hf =>
    BitVec.eq_of_getLsbD_eq fun i hi => by rw [BitVec.getLsbD_extractLsb', hf i hi]; simp [hi]
  refine ⟨?_, ?_, field 2 0 fun i hi => ?_, field 4 _ fun i hi => ?_, field 8 _ fun i hi => ?_, field 14 0 fun i hi => ?_,
    fun h => by rw [statusWrite, h, if_pos rfl], fun h => by rw [statusWrite, h]; rfl⟩
  all_goals simp only [statusWord, BitVec.getLsbD_append]
  · simp
  · simp
  all_goals interval_cases i <;> simp

/-! ### The window -/

theorem lanesOfWord_append (b0 b1 b2 b3 : Byte) : lanesOfWord (b3 ++ b2 ++ b1 ++ b0) = [b0, b1, b2, b3] := by
  have lane : ∀ (k : Nat) (b : Byte), (∀ i < 8, (b3 ++ b2 ++ b1 ++ b0).getLsbD (k + i) = b.getLsbD i) →
      (b3 ++ b2 ++ b1 ++ b0).extractLsb' k 8 = b := fun k b hb =>
    BitVec.eq_of_getLsbD_eq fun i hi => by rw [BitVec.getLsbD_extractLsb', hb i hi]; simp [hi]
  rw [lanesOfWord, lane 0 b0, lane 8 b1, lane 16 b2, lane 24 b3]
  all_goals
    intro i hi
    simp only [BitVec.getLsbD_append]
    interval_cases i <;> simp

theorem target_x : ∀ i : Fin 16, target (BitVec.ofNat 8 (4 * i.val)) = .x i := by decide

theorem target_unmapped {o : BitVec 8} (h : 0x4C ≤ o.toNat) : target o = .unmapped := by
  have hx : o.extractLsb' 6 2 ≠ 0 := fun e => by
    have hn : (o.toNat >>> 6) % 2 ^ 2 = 0 := by rw [← BitVec.extractLsb'_toNat, e]; rfl
    rw [Nat.shiftRight_eq_div_pow] at hn
    omega
  have hne : ∀ k : BitVec 8, k.toNat < 0x4C → o ≠ k := fun k hk e => by subst e; omega
  rw [target, if_neg hx, if_neg (hne 0x40 (by decide)), if_neg (hne 0x44 (by decide)),
    if_neg (hne 0x48 (by decide)), ite_self]

section
variable {s : State} {o : BitVec 8}

theorem serve_read_x {i : Reg} (ht : target o = .x i) (hb : s.status.busy = false) :
    serve (.read o 4) s = { s with reads := s.getX i :: s.reads } := by simp [serve, hostRead, ht, hb]

theorem serve_read_cmd (ht : target o = .cmd) (hb : s.status.busy = false) :
    serve (.read o 4) s = { s with reads := s.cmd :: s.reads } := by simp [serve, hostRead, ht, hb]

theorem serve_read_status (ht : target o = .status) :
    serve (.read o 4) s = { s with reads := statusWord s.status :: s.reads } := by simp [serve, hostRead, ht]

theorem serve_read_id (ht : target o = .id) : serve (.read o 4) s = { s with reads := Config.idWord :: s.reads } := by
  simp [serve, hostRead, ht]

theorem serve_read_unmapped (ht : target o = .unmapped) :
    serve (.read o 4) s = { s.busError with reads := 0 :: s.reads } := by
  simp [serve, hostRead, ht, State.busError]

variable {lanes : List Byte} {v : Word} (hv : wordOfLanes lanes = some v)
include hv

theorem serve_write_x {i : Reg} (ht : target o = .x i) (hb : s.status.busy = false) :
    serve (.write o lanes) s = s.putX i v := by simp [serve, hostWrite, hv, ht, hb]

theorem serve_write_status (ht : target o = .status) : serve (.write o lanes) s = s.writeStatus v := by
  simp [serve, hostWrite, hv, ht]

theorem serve_write_id (ht : target o = .id) : serve (.write o lanes) s = s.busError := by simp [serve, hostWrite, hv, ht]

theorem serve_write_unmapped (ht : target o = .unmapped) : serve (.write o lanes) s = s.busError := by
  simp [serve, hostWrite, hv, ht]

theorem commandOf_write (ht : target o = .cmd) : commandOf (.write o lanes) = some v := by rw [commandOf, if_pos ht, hv]

end

/-- Settles O9. -/
theorem windowMap : Obligations.WindowMap := by
  intro s b0 b1 b2 b3 hb v lanes
  have hv : wordOfLanes lanes = some v := rfl
  have hcmd : target 0x40 = .cmd := by decide
  have hstatus : target 0x44 = .status := by decide
  have hid : target 0x48 = .id := by decide
  exact ⟨lanesOfWord_append b0 b1 b2 b3, fun i => ⟨serve_read_x (target_x i) hb, serve_write_x hv (target_x i) hb⟩,
    serve_read_cmd hcmd hb, commandOf_write hv hcmd, serve_read_status hstatus, serve_write_status hv hstatus,
    serve_read_id hid, serve_write_id hv hid, fun o ho =>
      ⟨serve_read_unmapped (target_unmapped ho), serve_write_unmapped hv (target_unmapped ho)⟩⟩

end Sys2Proof.Machine
end

section
/-! PROOF. After RESET nothing a command wrote before can reach an output (70_reset_and_hazards.md R393, R395). Two states that
agree differ only in the memories of DLY and KS, so one is the other with its delay lines and strings replaced; every command
either leaves both lists alone, or replaces related units by related ones. -/

namespace Sys2Proof.Machine

/-! ### Related lists -/

section
variable {α β γ : Type} {R : α → β → Prop} {l : List α} {l' : List β}

theorem map_eq_map_iff {f : α → γ} {g : β → γ} : l.map f = l'.map g ↔ List.Forall₂ (fun u v => f u = g v) l l' := by
  rw [← List.forall₂_eq_eq_eq, List.forall₂_map_left_iff, List.forall₂_map_right_iff]

theorem map_eq_of_map_eq {δ : Type} {l₁ l₂ : List α} {k : α → γ} {f : α → δ} (h : l₁.map k = l₂.map k)
    (hf : ∀ u v, k u = k v → f u = f v) : l₁.map f = l₂.map f :=
  map_eq_map_iff.mpr ((map_eq_map_iff.mp h).imp hf)

theorem forall₂_getElem? (h : List.Forall₂ R l l') (n : Nat) :
    (l[n]? = none ∧ l'[n]? = none) ∨ ∃ u v, l[n]? = some u ∧ l'[n]? = some v ∧ R u v := by
  induction h generalizing n with
  | nil => exact .inl ⟨rfl, rfl⟩
  | cons hr _ ih => cases n with
    | zero => exact .inr ⟨_, _, rfl, rfl, hr⟩
    | succ n => exact ih n

theorem forall₂_set (h : List.Forall₂ R l l') {a : α} {b : β} (hab : R a b) (n : Nat) :
    List.Forall₂ R (l.set n a) (l'.set n b) := by
  induction h generalizing n with
  | nil => exact .nil
  | cons hr h ih => cases n with
    | zero => exact .cons hab h
    | succ n => exact .cons hr (ih n)

theorem forall₂_modify (h : List.Forall₂ R l l') {f : α → α} {g : β → β} (hfg : ∀ u v, R u v → R (f u) (g v)) (n : Nat) :
    List.Forall₂ R (l.modify n f) (l'.modify n g) := by
  induction h generalizing n with
  | nil => cases n <;> exact .nil
  | cons hr h ih => cases n with
    | zero => exact .cons (hfg _ _ hr) h
    | succ n => exact .cons hr (ih n)

theorem forall₂_map {δ : Type} {S : γ → δ → Prop} (h : List.Forall₂ R l l') {f : α → γ} {g : β → δ}
    (hfg : ∀ u v, R u v → S (f u) (g v)) : List.Forall₂ S (l.map f) (l'.map g) := by
  rw [List.forall₂_map_left_iff, List.forall₂_map_right_iff]
  exact h.imp hfg

end

/-! ### Units that agree below SIZE -/

/-- The delay lines differ at most in words at and above SIZE. -/
def Dly.agrees (u v : Dly) : Prop :=
  { u with buf := [] } = { v with buf := [] } ∧ ∀ i, i < u.size → bufRead u.buf i = bufRead v.buf i

/-- The strings differ at most in words at and above SIZE. -/
def Ks.agrees (u v : Ks) : Prop :=
  { u with buf := [] } = { v with buf := [] } ∧ ∀ i, i < u.size → bufRead u.buf i = bufRead v.buf i

theorem Dly.agrees.exists_buf {u v : Dly} (h : u.agrees v) :
    ∃ m, v = { u with buf := m } ∧ ∀ i, i < u.size → bufRead u.buf i = bufRead m i :=
  ⟨v.buf, congrArg (fun w : Dly => { w with buf := v.buf }) h.1.symm, h.2⟩

theorem Ks.agrees.exists_buf {u v : Ks} (h : u.agrees v) :
    ∃ m, v = { u with buf := m } ∧ ∀ i, i < u.size → bufRead u.buf i = bufRead m i :=
  ⟨v.buf, congrArg (fun w : Ks => { w with buf := v.buf }) h.1.symm, h.2⟩

theorem bufRead_bufWrite_congr {m m' : Memory} (hm : m.wf) (hm' : m'.wf) {i j : Nat} (v : Word)
    (h : bufRead m j = bufRead m' j) : bufRead (bufWrite m i v) j = bufRead (bufWrite m' i v) j := by
  by_cases hj : j = i
  · rw [hj, bufRead_bufWrite_same hm, bufRead_bufWrite_same hm']
  · rw [bufRead_bufWrite_other m v hj, bufRead_bufWrite_other m' v hj, h]

theorem bufRead_bufClear_congr (m m' : Memory) {n i : Nat} (h : i < n) :
    bufRead (bufClear m n) i = bufRead (bufClear m' n) i := by
  rw [bufRead_bufClear_lt m h, bufRead_bufClear_lt m' h]

/-- RESET makes delay lines of the same parameters agree. -/
theorem dlyClear_agrees {u v : Dly} (h : (u.delay, u.fb, u.mix, u.size) = (v.delay, v.fb, v.mix, v.size)) :
    (dlyClear u).agrees (dlyClear v) := by
  obtain ⟨⟩ := u
  obtain ⟨⟩ := v
  cases h
  exact ⟨rfl, fun i hi => bufRead_bufClear_congr _ _ hi⟩

/-- RESET makes strings of the same parameters agree. -/
theorem ksClear_agrees {u v : Ks} (h : (u.fb, u.damp, u.size, u.freq) = (v.fb, v.damp, v.size, v.freq)) :
    (ksClear u).agrees (ksClear v) := by
  obtain ⟨⟩ := u
  obtain ⟨⟩ := v
  cases h
  exact ⟨rfl, fun i hi => bufRead_bufClear_congr _ _ hi⟩

section
variable {u v : Dly}

/-- A delay line reads below SIZE: the same word goes out and the same word is stored. -/
theorem dlyStep_agrees (nan : Nat → Word) (inp : Word) {b b' : Build} (hu : u.sound b) (hv : v.sound b')
    (h : u.agrees v) :
    (dlyStep nan inp u).1 = (dlyStep nan inp v).1 ∧ (dlyStep nan inp u).2.agrees (dlyStep nan inp v).2 := by
  obtain ⟨m, rfl, hr⟩ := h.exists_buf
  have htap := hr _ (ringIndex_lt u.wptr u.delay (L := u.size) (by omega))
  simp only [dlyStep, htap]
  exact ⟨trivial, rfl, fun i hi => bufRead_bufWrite_congr hu.2.2.2.2.1 hv.2.2.2.2.1 _ (hr i hi)⟩

theorem dlyClear_agrees_of_agrees (h : u.agrees v) : (dlyClear u).agrees (dlyClear v) := by
  obtain ⟨m, rfl, -⟩ := h.exists_buf
  exact dlyClear_agrees rfl

theorem dlyResize_agrees (k : Nat) (h : u.agrees v) : (dlyResize k u).agrees (dlyResize k v) := by
  obtain ⟨m, rfl, -⟩ := h.exists_buf
  exact ⟨rfl, fun i hi => bufRead_bufClear_congr _ _ hi⟩

theorem dlySet_agrees (p : Nat) (w : Word) (h : u.agrees v) : (dlySet u p w).agrees (dlySet v p w) := by
  obtain ⟨m, rfl, hr⟩ := h.exists_buf
  unfold dlySet
  split <;> exact ⟨rfl, hr⟩

theorem dlyGet_agrees (p : Nat) (h : u.agrees v) : dlyGet u p = dlyGet v p := by
  obtain ⟨m, rfl, -⟩ := h.exists_buf
  rw [dlyGet_eq, dlyGet_eq]

end

section
variable {u v : Ks}

/-- A string reads below SIZE: the same word goes out and the same word is stored. -/
theorem ksStep_agrees (nan : Nat → Word) (ex : Word) {b b' : Build} (hu : u.sound b) (hv : v.sound b')
    (h : u.agrees v) : (ksStep nan ex u).1 = (ksStep nan ex v).1 ∧ (ksStep nan ex u).2.agrees (ksStep nan ex v).2 := by
  obtain ⟨m, rfl, hr⟩ := h.exists_buf
  have hout := hr _ hu.2.2.1
  simp only [ksStep, hout]
  exact ⟨trivial, rfl, fun i hi => bufRead_bufWrite_congr hu.2.2.2.1 hv.2.2.2.1 _ (hr i hi)⟩

theorem ksClear_agrees_of_agrees (h : u.agrees v) : (ksClear u).agrees (ksClear v) := by
  obtain ⟨m, rfl, -⟩ := h.exists_buf
  exact ksClear_agrees rfl

theorem ksRetune_agrees (fq : Word) (k : Nat) (h : u.agrees v) : (ksRetune fq k u).agrees (ksRetune fq k v) := by
  obtain ⟨m, rfl, hr⟩ := h.exists_buf
  unfold ksRetune
  split
  · exact ⟨rfl, hr⟩
  · exact ⟨rfl, fun i hi => bufRead_bufClear_congr _ _ hi⟩

theorem ksSet_agrees (p : Nat) (w : Word) (h : u.agrees v) : (ksSet u p w).agrees (ksSet v p w) := by
  obtain ⟨m, rfl, hr⟩ := h.exists_buf
  unfold ksSet
  split <;> exact ⟨rfl, hr⟩

theorem ksGet_agrees (p : Nat) (h : u.agrees v) : ksGet u p = ksGet v p := by
  obtain ⟨m, rfl, -⟩ := h.exists_buf
  rw [ksGet_eq, ksGet_eq]

end

/-! ### The state with other delay lines and strings -/

/-- The state with its delay lines and strings replaced. -/
def State.withLines (s : State) (ds : List Dly) (ks : List Ks) : State := { s with dly := ds, ks := ks }

/-- The lists of a state are related to `ds` and `ks`, unit by unit. -/
def State.linesAgree (s : State) (ds : List Dly) (ks : List Ks) : Prop :=
  List.Forall₂ Dly.agrees s.dly ds ∧ List.Forall₂ Ks.agrees s.ks ks

/-- Pairs of a related list, from the map that forgets and a property by index. -/
theorem forall₂_and_iff {α γ : Type} {f : α → γ} {P : α → α → Prop} {l l' : List α} :
    List.Forall₂ (fun u v => f u = f v ∧ P u v) l l' ↔
      l.map f = l'.map f ∧ ∀ (n : Nat) u v, l[n]? = some u → l'[n]? = some v → P u v := by
  constructor
  · intro h
    refine ⟨map_eq_map_iff.mpr (h.imp fun _ _ => And.left), fun n u v hu hv => ?_⟩
    rcases forall₂_getElem? h n with ⟨hnone, -⟩ | ⟨u', v', hu', hv', hr⟩
    · exact nomatch hu.symm.trans hnone
    · cases hu.symm.trans hu'
      cases hv.symm.trans hv'
      exact hr.2
  · rintro ⟨hmap, hP⟩
    have h := map_eq_map_iff.mp hmap
    clear hmap
    induction h with
    | nil => exact .nil
    | cons hr _ ih => exact .cons ⟨hr, hP 0 _ _ rfl rfl⟩ (ih fun n => hP (n + 1))

/-- Agreeing states: one is the other with related delay lines and strings. -/
theorem agree_iff {s t : State} : agree s t ↔ t = s.withLines t.dly t.ks ∧ s.linesAgree t.dly t.ks := by
  constructor
  · rintro ⟨hrest, hd, hk, hdr, hkr⟩
    have hwith := congrArg (fun r : State => r.withLines t.dly t.ks) hrest
    exact ⟨hwith.symm, forall₂_and_iff.mpr ⟨hd, fun n u v hu hv i => hdr n u v i hu hv⟩,
      forall₂_and_iff.mpr ⟨hk, fun n u v hu hv i => hkr n u v i hu hv⟩⟩
  · rintro ⟨hrest, hlines⟩
    obtain ⟨hd, hdr⟩ := forall₂_and_iff.mp hlines.1
    obtain ⟨hk, hkr⟩ := forall₂_and_iff.mp hlines.2
    have hwithout := congrArg (fun r : State => r.withLines [] []) hrest
    exact ⟨hwithout.symm, hd, hk, fun n u v i hu hv => hdr n u v hu hv i,
      fun n u v i hu hv => hkr n u v hu hv i⟩

theorem agree_withLines {s : State} {ds : List Dly} {ks : List Ks} (h : s.linesAgree ds ks) : agree s (s.withLines ds ks) :=
  agree_iff.mpr ⟨rfl, h⟩

theorem agree_refl (s : State) : agree s s :=
  agree_withLines
    ⟨List.forall₂_same.mpr fun _ _ => ⟨rfl, fun _ _ => rfl⟩, List.forall₂_same.mpr fun _ _ => ⟨rfl, fun _ _ => rfl⟩⟩

/-- RESET makes agree what agrees on the parts it keeps. -/
theorem softReset_agree {s t : State} (h : keptEqual s t) : agree (softReset s) (softReset t) := by
  obtain ⟨hx, hcmd, hstatus, hsr, hbuild, hdraws, hhost, hreads, hwt, hsvf, hlad, hrev, hdly, hcho, hfm, hks, henv,
    hlfo⟩ := h
  have hsvf' : s.svf.map svfClear = t.svf.map svfClear := map_eq_of_map_eq hsvf (by rintro ⟨⟩ ⟨⟩ ⟨⟩; rfl)
  have hlad' : s.lad.map ladClear = t.lad.map ladClear := map_eq_of_map_eq hlad (by rintro ⟨⟩ ⟨⟩ ⟨⟩; rfl)
  have hcho' : s.cho.map choClear = t.cho.map choClear := map_eq_of_map_eq hcho (by rintro ⟨⟩ ⟨⟩ ⟨⟩; rfl)
  have hfm' : s.fm.map fmClear = t.fm.map fmClear := map_eq_of_map_eq hfm (by rintro ⟨⟩ ⟨⟩ ⟨⟩; rfl)
  have henv' : s.env.map envClear = t.env.map envClear := map_eq_of_map_eq henv (by rintro ⟨⟩ ⟨⟩ ⟨⟩; rfl)
  have hlfo' : s.lfo.map lfoClear = t.lfo.map lfoClear := map_eq_of_map_eq hlfo (by rintro ⟨⟩ ⟨⟩ ⟨⟩; rfl)
  have hrev' : revClear s.rev = revClear t.rev := by simpa [revClear] using hrev
  refine agree_iff.mpr ⟨?_, forall₂_map (map_eq_map_iff.mp hdly) fun _ _ => dlyClear_agrees,
    forall₂_map (map_eq_map_iff.mp hks) fun _ _ => ksClear_agrees⟩
  simp only [softReset, State.withLines, hx, hcmd, hstatus, hsr, hbuild, hdraws, hhost, hreads, hwt, hsvf', hlad', hrev',
    hcho', hfm', henv', hlfo']

end Sys2Proof.Machine
end

section
/-! PROOF. Agreement is kept by every command and every step (70_reset_and_hazards.md R395). -/

namespace Sys2Proof.Machine

/-! ### Results that agree -/

/-- When both sides answer next states, they agree. -/
def resultsAgree (r r' : Result) : Prop := ∀ s t, r = .next s → r' = .next t → agree s t

theorem resultsAgree_next {s t : State} (h : agree s t) : resultsAgree (.next s) (.next t) := by
  rintro _ _ ⟨⟩ ⟨⟩
  exact h

theorem resultsAgree_ite {c : Prop} [Decidable c] {a b a' b' : Result} (ha : resultsAgree a a') (hb : resultsAgree b b') :
    resultsAgree (if c then a else b) (if c then a' else b') := by
  split
  · exact ha
  · exact hb

section
variable {s : State} {ds : List Dly} {ks : List Ks}

theorem resultsAgree_withLines {t : State} (h : t.linesAgree ds ks) : resultsAgree (.next t) (.next (t.withLines ds ks)) :=
  resultsAgree_next (agree_withLines h)

variable (h : s.linesAgree ds ks)
include h

theorem resultsAgree_raise (e : Err) (op : BitVec 6) : resultsAgree (raise e op s) (raise e op (s.withLines ds ks)) :=
  resultsAgree_withLines (t := s.record e op) h

theorem resultsAgree_onInst {α : Type} {R : α → α → Prop} {op : BitVec 6} {us us' : List α} {n : Nat}
    {body body' : α → Result}
    (hus : List.Forall₂ R us us')
    (hb : ∀ u v, us[n]? = some u → us'[n]? = some v → R u v → resultsAgree (body u) (body' v)) :
    resultsAgree (onInst op us n s body) (onInst op us' n (s.withLines ds ks) body') := by
  rcases forall₂_getElem? hus n with ⟨hu, hv⟩ | ⟨u, v, hu, hv, hr⟩
  · rw [onInst, onInst, hu, hv]
    exact resultsAgree_raise h _ _
  · rw [onInst_some hu, onInst_some hv]
    exact hb u v hu hv hr

/-- A class that both states share. -/
theorem resultsAgree_onInst_same {α : Type} {op : BitVec 6} {us : List α} {n : Nat} {body body' : α → Result}
    (hb : ∀ u, resultsAgree (body u) (body' u)) :
    resultsAgree (onInst op us n s body) (onInst op us n (s.withLines ds ks) body') :=
  resultsAgree_onInst (R := Eq) h (List.forall₂_refl us) fun u _ _ _ huv => huv ▸ hb u

theorem resultsAgree_onSample {op : BitVec 6} {r : Reg} {body body' : Word → Result}
    (hb : ∀ v, resultsAgree (body v) (body' v)) :
    resultsAgree (onSample op r s body) (onSample op r (s.withLines ds ks) body') :=
  resultsAgree_ite (hb _) (resultsAgree_raise h _ _)

/-! ### Parameters -/

theorem count_withLines (u : Nat) : (s.withLines ds ks).count u = s.count u := by
  unfold State.count
  split
  case h_5 => exact h.1.length_eq.symm
  case h_9 => exact h.2.length_eq.symm
  all_goals rfl

theorem legal_withLines (u n p : Nat) (v : Word) : (s.withLines ds ks).legal u n p v = s.legal u n p v := by
  unfold State.legal
  split
  case h_9 =>
    rcases forall₂_getElem? h.1 n with ⟨hu, hv⟩ | ⟨u, w, hu, hv, hr⟩
    · simp only [State.withLines, hu, hv]
    · obtain ⟨m, rfl, -⟩ := hr.exists_buf
      simp only [State.withLines, hu, hv, Option.any_some]
  all_goals rfl

theorem getParam_withLines (u n p : Nat) : (s.withLines ds ks).getParam u n p = s.getParam u n p := by
  unfold State.getParam
  split
  case h_5 =>
    rcases forall₂_getElem? h.1 n with ⟨hu, hv⟩ | ⟨u, v, hu, hv, hr⟩
    · simp only [State.withLines, hu, hv]
    · simp only [State.withLines, hu, hv, Option.bind_some, dlyGet_agrees p hr]
  case h_9 =>
    rcases forall₂_getElem? h.2 n with ⟨hu, hv⟩ | ⟨u, v, hu, hv, hr⟩
    · simp only [State.withLines, hu, hv]
    · simp only [State.withLines, hu, hv, Option.bind_some, ksGet_agrees p hr]
  all_goals rfl

/-- Storing a parameter leaves the lists alone or stores it in both. -/
theorem setParam_agree (u n p : Nat) (v : Word) : agree (s.setParam u n p v) ((s.withLines ds ks).setParam u n p v) := by
  have hdly : List.Forall₂ Dly.agrees (s.dly.modify n (dlySet · p v)) (ds.modify n (dlySet · p v)) :=
    forall₂_modify h.1 (fun _ _ => dlySet_agrees p v) n
  have hks : List.Forall₂ Ks.agrees (s.ks.modify n (ksSet · p v)) (ks.modify n (ksSet · p v)) :=
    forall₂_modify h.2 (fun _ _ => ksSet_agrees p v) n
  unfold State.setParam
  split
  case h_4 => exact agree_withLines (s := s.setParam 4 n p v) ⟨hdly, h.2⟩
  case h_8 => exact agree_withLines (s := s.setParam 8 n p v) ⟨h.1, hks⟩
  all_goals exact agree_withLines h

/-! ### Commands -/

theorem execPrep_agree (s1 : Reg) : resultsAgree (execPrep s1 s) (execPrep s1 (s.withLines ds ks)) :=
  resultsAgree_ite (resultsAgree_withLines h) (resultsAgree_raise h _ _)

theorem execPset_agree (n : Nat) (s1 : Reg) (u p : Nat) :
    resultsAgree (execPset n s1 u p s) (execPset n s1 u p (s.withLines ds ks)) := by
  simp only [execPset, count_withLines h, legal_withLines h]
  refine resultsAgree_ite (resultsAgree_raise h _ _) (resultsAgree_ite (resultsAgree_raise h _ _) ?_)
  split
  · exact resultsAgree_raise h _ _
  · exact resultsAgree_raise h _ _
  · exact resultsAgree_ite (resultsAgree_next (setParam_agree h u n p _)) (resultsAgree_raise h _ _)

theorem execPget_agree (n : Nat) (d : Reg) (u p : Nat) :
    resultsAgree (execPget n d u p s) (execPget n d u p (s.withLines ds ks)) := by
  simp only [execPget, count_withLines h, getParam_withLines h]
  refine resultsAgree_ite (resultsAgree_raise h _ _) (resultsAgree_ite (resultsAgree_raise h _ _) ?_)
  split
  · exact resultsAgree_raise h _ _
  · exact resultsAgree_withLines (t := s.putX d _) h

theorem softReset_withLines_agree : agree (softReset s) (softReset (s.withLines ds ks)) :=
  agree_withLines (s := softReset s)
    ⟨forall₂_map h.1 fun _ _ => dlyClear_agrees_of_agrees, forall₂_map h.2 fun _ _ => ksClear_agrees_of_agrees⟩

/-- A unit command with one sample operand on a class that both states share. -/
theorem sampleCommand_agree {α : Type} {op : BitVec 6} {us : List α} {n : Nat} {r : Reg} {effect effect' : α → Word → State}
    (he : ∀ u v, agree (effect u v) (effect' u v)) :
    resultsAgree (onInst op us n s fun u => onSample op r s fun v => .next (effect u v))
      (onInst op us n (s.withLines ds ks) fun u => onSample op r (s.withLines ds ks) fun v => .next (effect' u v)) :=
  resultsAgree_onInst_same h fun u => resultsAgree_onSample h fun v => resultsAgree_next (he u v)

/-- Agreeing units stored in both states, and one output. -/
theorem putDly_agree {n : Nat} {d : Reg} {u v : Dly} {w w' : Word} (hw : w = w') (huv : u.agrees v) :
    agree (((s.putDly n u).putX d w).drawn) ((((s.withLines ds ks).putDly n v).putX d w').drawn) :=
  hw ▸ agree_withLines (s := ((s.putDly n u).putX d w).drawn) ⟨forall₂_set h.1 huv n, h.2⟩

theorem putKs_agree {n : Nat} {d : Reg} {u v : Ks} {w w' : Word} (hw : w = w') (huv : u.agrees v) :
    agree (((s.putKs n u).putX d w).drawn) ((((s.withLines ds ks).putKs n v).putX d w').drawn) :=
  hw ▸ agree_withLines (s := ((s.putKs n u).putX d w).drawn) ⟨h.1, forall₂_set h.2 huv n⟩

theorem execDly_agree (n : Nat) (d s1 : Reg) (hs : s.buffersSound) (ht : (s.withLines ds ks).buffersSound) :
    resultsAgree (execDly n d s1 s) (execDly n d s1 (s.withLines ds ks)) := by
  obtain ⟨-, -, hsd, -, -⟩ := hs
  obtain ⟨-, -, htd, -, -⟩ := ht
  refine resultsAgree_onInst h h.1 fun u v hu hv huv => resultsAgree_onSample h fun inp => resultsAgree_next ?_
  obtain ⟨hout, hline⟩ := dlyStep_agrees s.nan inp (hsd u (List.mem_of_getElem? hu)) (htd v (List.mem_of_getElem? hv)) huv
  exact putDly_agree h hout hline

theorem execDlysz_agree (n : Nat) (s1 : Reg) : resultsAgree (execDlysz n s1 s) (execDlysz n s1 (s.withLines ds ks)) :=
  resultsAgree_onInst h h.1 fun u _ _ _ huv => resultsAgree_ite (resultsAgree_raise h _ _)
    (resultsAgree_withLines (t := s.putDly n (dlyResize (s.getU s1) u)) ⟨forall₂_set h.1 (dlyResize_agrees _ huv) n, h.2⟩)

theorem execKs_agree (n : Nat) (d s1 : Reg) (hs : s.buffersSound) (ht : (s.withLines ds ks).buffersSound) :
    resultsAgree (execKs n d s1 s) (execKs n d s1 (s.withLines ds ks)) := by
  obtain ⟨-, -, -, -, hsk⟩ := hs
  obtain ⟨-, -, -, -, htk⟩ := ht
  refine resultsAgree_onInst h h.2 fun u v hu hv huv => resultsAgree_onSample h fun ex => resultsAgree_next ?_
  obtain ⟨hout, hline⟩ := ksStep_agrees s.nan ex (hsk u (List.mem_of_getElem? hu)) (htk v (List.mem_of_getElem? hv)) huv
  exact putKs_agree h hout hline

theorem execKsf_agree (n : Nat) (s1 : Reg) : resultsAgree (execKsf n s1 s) (execKsf n s1 (s.withLines ds ks)) :=
  resultsAgree_onInst h h.2 fun u _ _ _ huv => resultsAgree_ite (resultsAgree_raise h _ _) <|
    resultsAgree_ite (resultsAgree_raise h _ _) <| resultsAgree_ite (resultsAgree_raise h _ _)
      (resultsAgree_withLines (t := s.putKs n (ksRetune (s.getX s1) _ u)) ⟨h.1, forall₂_set h.2 (ksRetune_agrees _ _ huv) n⟩)

theorem execFadd_agree (d s1 s2 : Reg) : resultsAgree (execFadd d s1 s2 s) (execFadd d s1 s2 (s.withLines ds ks)) :=
  resultsAgree_onSample h fun _ => resultsAgree_onSample h fun _ => resultsAgree_withLines h

theorem execFmul_agree (d s1 s2 : Reg) : resultsAgree (execFmul d s1 s2 s) (execFmul d s1 s2 (s.withLines ds ks)) :=
  resultsAgree_onSample h fun _ => resultsAgree_onSample h fun _ => resultsAgree_withLines h

theorem execSclip_agree (d s1 : Reg) : resultsAgree (execSclip d s1 s) (execSclip d s1 (s.withLines ds ks)) :=
  resultsAgree_onSample h fun _ => resultsAgree_withLines h

/-- Every command keeps agreement: only PSET, RESET, DLY, DLYSZ, KS and KSF touch the lists. -/
theorem exec_agree (i : Instr) (hs : s.buffersSound) (ht : (s.withLines ds ks).buffersSound) :
    resultsAgree (exec i s) (exec i (s.withLines ds ks)) := by
  cases i with
  | nop => exact resultsAgree_withLines h
  | reset => exact resultsAgree_next (softReset_withLines_agree h)
  | prep s1 => exact execPrep_agree h s1
  | pset n s1 u p => exact execPset_agree h n s1 u p
  | pget n d u p => exact execPget_agree h n d u p
  | svfLp n d s1 => exact sampleCommand_agree h fun _ _ => agree_withLines h
  | svfBp n d s1 => exact sampleCommand_agree h fun _ _ => agree_withLines h
  | svfHp n d s1 => exact sampleCommand_agree h fun _ _ => agree_withLines h
  | svfNotch n d s1 => exact sampleCommand_agree h fun _ _ => agree_withLines h
  | lad n d s1 => exact sampleCommand_agree h fun _ _ => agree_withLines h
  | rev n d s1 => exact sampleCommand_agree h fun _ _ => agree_withLines h
  | dly n d s1 => exact execDly_agree h n d s1 hs ht
  | dlysz n s1 => exact execDlysz_agree h n s1
  | cho n d s1 => exact sampleCommand_agree h fun _ _ => agree_withLines h
  | wt n d s1 => exact sampleCommand_agree h fun _ _ => agree_withLines h
  | fm n d s1 s2 =>
    exact resultsAgree_onInst_same h fun _ => resultsAgree_onSample h fun _ => resultsAgree_onSample h fun _ =>
      resultsAgree_withLines h
  | ks n d s1 => exact execKs_agree h n d s1 hs ht
  | ksf n s1 => exact execKsf_agree h n s1
  | env n d g => exact resultsAgree_onInst_same h fun _ => resultsAgree_withLines h
  | lfo n d => exact resultsAgree_onInst_same h fun _ => resultsAgree_withLines h
  | fadd d s1 s2 => exact execFadd_agree h d s1 s2
  | fmul d s1 s2 => exact execFmul_agree h d s1 s2
  | sclip d s1 => exact execSclip_agree h d s1

/-! ### Steps -/

/-- Hardware reset sees no more of the lists than their lengths. -/
theorem hardReset_agree : agree (hardReset s) (hardReset (s.withLines ds ks)) := by
  have he : hardReset (s.withLines ds ks) = hardReset s := by
    simp only [hardReset, State.withLines, ← h.1.length_eq, ← h.2.length_eq]
  rw [he]
  exact agree_refl _

end

section
variable {s : State} {ds : List Dly} {ks : List Ks}

theorem serve_withLines (op : BusOp) : serve op (s.withLines ds ks) = (serve op s).withLines ds ks := by
  have hb : (s.withLines ds ks).status = s.status := rfl
  cases op with
  | read o n =>
    simp only [serve, hostRead, hb]
    repeat' split
    all_goals rfl
  | write o l =>
    simp only [serve, hostWrite, hb]
    repeat' split
    all_goals rfl

theorem linesAgree_serve (op : BusOp) (h : s.linesAgree ds ks) : (serve op s).linesAgree ds ks := by
  rw [eq_update_of_sameBut (serve_sameBut op s)]
  exact h

theorem serve_agree (op : BusOp) (h : s.linesAgree ds ks) : agree (serve op s) (serve op (s.withLines ds ks)) := by
  rw [serve_withLines]
  exact agree_withLines (linesAgree_serve op h)

theorem serveAll_withLines (ops : List BusOp) : serveAll ops (s.withLines ds ks) = (serveAll ops s).withLines ds ks := by
  induction ops generalizing s with
  | nil => rfl
  | cons op ops ih => rw [serveAll, serve_withLines, ih, serveAll]

theorem startedFrom_withLines (w : Word) : startedFrom w (s.withLines ds ks) = (startedFrom w s).withLines ds ks :=
  serveAll_withLines (s := startCommand w { s with host := afterOverlap s.host }) (overlapping s.host)

theorem resultsAgree_finish {r r' : Result} (h : resultsAgree r r') :
    resultsAgree (mapNext finishCommand r) (mapNext finishCommand r') := by
  intro s' t' hs ht
  obtain ⟨u, hu, rfl⟩ := mapNext_cases hs
  obtain ⟨v, hv, rfl⟩ := mapNext_cases ht
  obtain ⟨hrest, hlines⟩ := agree_iff.mp (h u v hu hv)
  rw [hrest]
  exact agree_withLines (s := finishCommand u) hlines

theorem linesAgree_startedFrom (w : Word) (h : s.linesAgree ds ks) : (startedFrom w s).linesAgree ds ks := by
  rw [startedFrom_eq]
  exact h

theorem startedFrom_buffersSound (w : Word) (h : s.buffersSound) : (startedFrom w s).buffersSound := by
  rw [startedFrom_eq]
  exact h

theorem runCommand_agree (w : Word) (h : s.linesAgree ds ks) (hs : s.buffersSound) (ht : (s.withLines ds ks).buffersSound) :
    resultsAgree (runCommand w s) (runCommand w (s.withLines ds ks)) := by
  have ht' := startedFrom_buffersSound w ht
  rw [startedFrom_withLines] at ht'
  have hexec : resultsAgree (execWord w (startedFrom w s)) (execWord w ((startedFrom w s).withLines ds ks)) := by
    unfold execWord
    split
    · exact exec_agree (linesAgree_startedFrom w h) _ (startedFrom_buffersSound w hs) ht'
    · exact resultsAgree_raise (linesAgree_startedFrom w h) _ _
  rw [← startedFrom_withLines] at hexec
  exact resultsAgree_finish hexec

theorem step_agree (h : s.linesAgree ds ks) (hs : s.buffersSound) (ht : (s.withLines ds ks).buffersSound) :
    resultsAgree (step s) (step (s.withLines ds ks)) := by
  have hhost : (s.withLines ds ks).host = s.host := rfl
  have hstatus : (s.withLines ds ks).status = s.status := rfl
  simp only [step, nextEvent, hhost, hstatus]
  split
  · exact resultsAgree_withLines h
  · next es _ => exact resultsAgree_next (hardReset_agree (s := { s with host := es }) h)
  · next op _ es _ =>
    split
    · exact runCommand_agree (s := { s with host := es }) _ h hs ht
    · exact resultsAgree_next (serve_agree (s := { s with host := es }) op h)

end

/-- Settles O22: RESET brings agreement about, every step keeps it. -/
theorem resetForgetsThePast : Obligations.ResetForgetsThePast := by
  refine ⟨fun s t s' t' hkept hs' ht' => ?_, fun s t s' t' hs ht hagree hs' ht' => ?_⟩
  · cases hs'
    cases ht'
    exact softReset_agree hkept
  · obtain ⟨hrest, hlines⟩ := agree_iff.mp hagree
    rw [hrest] at ht ht'
    exact step_agree hlines hs ht s' t' hs' ht'

end Sys2Proof.Machine
end

section
/-! PROOF. Accesses the host window refuses (20_memory.md R86, R88), and the step that serves one access or one reset
input (R89). -/

namespace Sys2Proof.Machine

/-! ### Offsets that name no register, lanes that carry no word -/

theorem target_misaligned {o : BitVec 8} (h : o.toNat % 4 ≠ 0) : target o = .unmapped := by
  have hlow : o.extractLsb' 0 2 ≠ 0 := fun e => by
    have hn : o.toNat % 2 ^ 2 = 0 := by rw [← Nat.shiftRight_zero (n := o.toNat), ← BitVec.extractLsb'_toNat, e]; rfl
    omega
  rw [target, if_pos hlow]

theorem target_unmapped_or_id {o : BitVec 8} (h : o.toNat % 4 ≠ 0 ∨ 0x48 ≤ o.toNat) :
    target o = .unmapped ∨ target o = .id := by
  rcases h with hmis | hge
  · exact .inl (target_misaligned hmis)
  · by_cases hid : o = 0x48
    · exact .inr (by rw [hid]; decide)
    · have hne : o.toNat ≠ 0x48 := fun e => hid (BitVec.eq_of_toNat_eq e)
      by_cases hmis : o.toNat % 4 = 0
      · exact .inl (target_unmapped (by omega))
      · exact .inl (target_misaligned hmis)

theorem wordOfLanes_eq_none {lanes : List Byte} (h : lanes.length ≠ 4) : wordOfLanes lanes = none := by
  unfold wordOfLanes
  split
  · exact absurd rfl h
  · rfl

/-! ### Malformed accesses, whatever BUSY is -/

section
variable {s : State} {o : BitVec 8} {lanes : List Byte} {bytes : Nat}

theorem serve_read_width (h : bytes ≠ 4) : serve (.read o bytes) s = { s.busError with reads := 0 :: s.reads } := by
  simp [serve, hostRead, h, State.busError]

theorem serve_write_width (h : lanes.length ≠ 4) : serve (.write o lanes) s = s.busError := by
  simp [serve, hostWrite, wordOfLanes_eq_none h]

theorem serve_read_malformed (h : bytes ≠ 4 ∨ o.toNat % 4 ≠ 0 ∨ 0x4C ≤ o.toNat) :
    serve (.read o bytes) s = { s.busError with reads := 0 :: s.reads } := by
  by_cases hw : bytes = 4
  · subst hw
    rcases h.resolve_left (fun hne => hne rfl) with hmis | hge
    · exact serve_read_unmapped (target_misaligned hmis)
    · exact serve_read_unmapped (target_unmapped hge)
  · exact serve_read_width hw

theorem serve_write_malformed (h : lanes.length ≠ 4 ∨ o.toNat % 4 ≠ 0 ∨ 0x48 ≤ o.toNat) :
    serve (.write o lanes) s = s.busError := by
  by_cases hw : lanes.length = 4
  · obtain ⟨b0, b1, b2, b3, rfl⟩ := List.length_eq_four.mp hw
    rcases target_unmapped_or_id (h.resolve_left fun hne => hne hw) with ht | ht
    · exact serve_write_unmapped rfl ht
    · exact serve_write_id rfl ht
  · exact serve_write_width hw

end

/-- Settles O10: a malformed access is refused before BUSY is looked at. -/
theorem malformedAccessIsBusError : Obligations.MalformedAccessIsBusError := fun _ _ _ _ _ =>
  ⟨serve_read_malformed, serve_write_malformed⟩

/-- Settles O11: the same refusal as with BUSY = 0. -/
theorem malformedAccessWhileBusy : Obligations.MalformedAccessWhileBusy := fun _ _ _ _ _ =>
  ⟨serve_read_malformed, serve_write_malformed⟩

/-! ### Well-formed accesses while BUSY = 1 -/

section
variable {s : State} {o : BitVec 8} {v : Word} (hb : s.status.busy = true)
include hb

theorem serve_read_busy (ht : (∃ i, target o = .x i) ∨ target o = .cmd) :
    serve (.read o 4) s = { s.record .busy 0 with reads := 0 :: s.reads } := by
  rcases ht with ⟨i, ht⟩ | ht <;> simp [serve, hostRead, ht, hb]

theorem serve_write_x_busy {i : Reg} (ht : target o = .x i) :
    serve (.write o (lanesOfWord v)) s = s.record .busy 0 := by simp [serve, hostWrite, ht, hb]

theorem serve_write_cmd_busy (ht : target o = .cmd) :
    serve (.write o (lanesOfWord v)) s = s.record .busy (opField v) := by simp [serve, hostWrite, ht, hb]

end

/-- Settles O8: `Xi` and CMD are refused, STATUS and ID do not look at BUSY. -/
theorem busyAccessRefused : Obligations.BusyAccessRefused := by
  intro s v hb
  have hv : wordOfLanes (lanesOfWord v) = some v := wordOfLanes_lanesOfWord v
  have hcmd : target 0x40 = .cmd := by decide
  have hstatus : target 0x44 = .status := by decide
  have hid : target 0x48 = .id := by decide
  exact ⟨fun i => ⟨serve_read_busy hb (.inl ⟨i, target_x i⟩), serve_write_x_busy hb (target_x i)⟩,
    serve_read_busy hb (.inr hcmd), serve_write_cmd_busy hb hcmd, serve_read_status hstatus,
    serve_write_status hv hstatus, serve_read_id hid, serve_write_id hv hid⟩

/-! ### One step -/

section
variable {s : State} {es : List HostEvent}

/-- An access that starts no command is served, and that is the whole step (20_memory.md R89). -/
theorem step_access {op : BusOp} {early : Bool} (hh : s.host = .access op early :: es)
    (hop : commandOf op = none ∨ s.status.busy = true) : step s = .next (serve op { s with host := es }) := by
  simp only [step, nextEvent, hh]
  split
  · next w hidle hc =>
    rcases hop with hnone | hbusy
    · simp [hnone] at hc
    · simp [hbusy] at hidle
  · rfl

theorem step_hardReset (hh : s.host = .hardReset :: es) : step s = .next (hardReset { s with host := es }) := by
  simp only [step, nextEvent, hh]

end

/-- Settles O12. -/
theorem stepServesAccess : Obligations.StepServesAccess :=
  ⟨fun _ _ _ _ hh hop => step_access hh hop, fun _ _ hh => ⟨_, step_hardReset hh, rfl, rfl⟩⟩

end Sys2Proof.Machine
end

section
/-! PROOF. The decoder is a lookup in the opcode map (30_encoding.md R106, R107): a word decodes exactly when it
satisfies a row's match under the row's mask, and each row reads one instruction from its words. Both round trips, the
map and the reserved words (R108) follow. -/

namespace Sys2Proof.Machine

/-! ### The rows of the opcode map -/

/-- What each row of the opcode map reads from a word, in the map's order. -/
def opcodeReaders : List (Word → Instr) :=
  [fun _ => .nop, fun _ => .reset, fun w => .prep (rs1Field w),
   fun w => .pset (instField w) (rs1Field w) (classField w) (indexField w),
   fun w => .pget (instField w) (rdField w) (classField w) (indexField w),
   fun w => .svfLp (instField w) (rdField w) (rs1Field w), fun w => .svfBp (instField w) (rdField w) (rs1Field w),
   fun w => .svfHp (instField w) (rdField w) (rs1Field w), fun w => .svfNotch (instField w) (rdField w) (rs1Field w),
   fun w => .lad (instField w) (rdField w) (rs1Field w), fun w => .rev (instField w) (rdField w) (rs1Field w),
   fun w => .dly (instField w) (rdField w) (rs1Field w), fun w => .dlysz (instField w) (rs1Field w),
   fun w => .cho (instField w) (rdField w) (rs1Field w), fun w => .wt (instField w) (rdField w) (rs1Field w),
   fun w => .fm (instField w) (rdField w) (rs1Field w) (rs2Field w),
   fun w => .ks (instField w) (rdField w) (rs1Field w), fun w => .ksf (instField w) (rs1Field w),
   fun w => .env (instField w) (rdField w) (gateField w), fun w => .lfo (instField w) (rdField w),
   fun w => .fadd (rdField w) (rs1Field w) (rs2Field w), fun w => .fmul (rdField w) (rs1Field w) (rs2Field w),
   fun w => .sclip (rdField w) (rs1Field w)]

/-- A row `(mnemonic, match, mask)` of the opcode map with its reader. -/
abbrev OpcodeRow := (String × Word × Word) × (Word → Instr)

def opcodeRows : List OpcodeRow := opcodeMap.zip opcodeReaders

theorem opcodeRows_fst : opcodeRows.map (·.1) = opcodeMap := rfl

theorem fst_mem_opcodeMap {r : OpcodeRow} (h : r ∈ opcodeRows) : r.1 ∈ opcodeMap :=
  opcodeRows_fst ▸ List.mem_map_of_mem h

theorem exists_reader {row : String × Word × Word} (h : row ∈ opcodeMap) : ∃ f, (row, f) ∈ opcodeRows := by
  obtain ⟨⟨_, f⟩, hr, rfl⟩ := List.mem_map.mp (opcodeRows_fst ▸ h)
  exact ⟨f, hr⟩

theorem eq_of_mnemonic_eq : ∀ r ∈ opcodeMap, ∀ r' ∈ opcodeMap, r.1 = r'.1 → r = r' := by decide

theorem mnemonic_of_row (w : Word) : ∀ r ∈ opcodeRows, (r.2 w).mnemonic = r.1.1 := List.map_inj_left.mp rfl

/-! ### The decoder is a lookup -/

theorem masked_eq_ok {w k m : Word} {i j : Instr} : masked w k m i = .ok j ↔ w &&& k = m ∧ i = j := by
  unfold masked
  split <;> simp_all

/-- Everything the decoder can do: test the word against one row, or find its opcode reserved. -/
theorem decode_cases (w : Word) :
    (∃ r ∈ opcodeRows, decode w = masked w r.1.2.2 r.1.2.1 (r.2 w)) ∨ decode w = .error .reservedOpcode := by
  have row : ∀ (n : Fin 23) {e : Except DecodeReject Instr},
      e = masked w opcodeRows[n].1.2.2 opcodeRows[n].1.2.1 (opcodeRows[n].2 w) →
        ∃ r ∈ opcodeRows, e = masked w r.1.2.2 r.1.2.1 (r.2 w) :=
    fun n _ he => ⟨_, List.getElem_mem _, he⟩
  unfold decode
  split
  · exact .inl (row 0 rfl)
  · exact .inl (row 1 rfl)
  · exact .inl (row 2 rfl)
  · exact .inl (row 3 rfl)
  · exact .inl (row 4 rfl)
  · unfold decodeSvf
    split
    · exact .inl (row 5 rfl)
    · exact .inl (row 6 rfl)
    · exact .inl (row 7 rfl)
    · exact .inl (row 8 rfl)
  · exact .inl (row 9 rfl)
  · exact .inl (row 10 rfl)
  · exact .inl (row 11 rfl)
  · exact .inl (row 12 rfl)
  · exact .inl (row 13 rfl)
  · exact .inl (row 14 rfl)
  · exact .inl (row 15 rfl)
  · exact .inl (row 16 rfl)
  · exact .inl (row 17 rfl)
  · exact .inl (row 18 rfl)
  · exact .inl (row 19 rfl)
  · exact .inl (row 20 rfl)
  · exact .inl (row 21 rfl)
  · exact .inl (row 22 rfl)
  · exact .inr rfl

/-- A field that the mask fixes is the field of the match. -/
theorem field_of_masked {w k m : Word} (h : w &&& k = m) (a n : Nat)
    (hk : k.extractLsb' a n = BitVec.allOnes n) : w.extractLsb' a n = m.extractLsb' a n := by
  rw [← h, BitVec.extractLsb'_and, hk, BitVec.and_allOnes]

/-- The mask fixes the opcode, and the `sel` of the SVF rows, so the decoder tests a word of a row against that row. -/
theorem decode_of_row {w : Word} : ∀ r ∈ opcodeRows, w &&& r.1.2.2 = r.1.2.1 → decode w = .ok (r.2 w) := by
  refine List.forall_iff_forall_mem.mp ?_
  repeat' apply And.intro
  all_goals
    intro h
    simpa [decode, decodeSvf, opField, selField, field_of_masked h, masked] using h

theorem decode_eq_ok {w : Word} {i : Instr} :
    decode w = .ok i ↔ ∃ r ∈ opcodeRows, w &&& r.1.2.2 = r.1.2.1 ∧ r.2 w = i := by
  constructor
  · intro h
    obtain ⟨r, hr, hrow⟩ | hreserved := decode_cases w
    · exact ⟨r, hr, masked_eq_ok.mp (hrow.symm.trans h)⟩
    · cases hreserved.symm.trans h
  · rintro ⟨r, hr, hm, rfl⟩
    exact decode_of_row r hr hm

/-- R108: a word that satisfies no row is rejected. -/
theorem decode_eq_error_of_no_row {w : Word} (h : ∀ row ∈ opcodeMap, w &&& row.2.2 ≠ row.2.1) :
    ∃ e, decode w = .error e := by
  cases hd : decode w with
  | error e => exact ⟨e, rfl⟩
  | ok i =>
    obtain ⟨r, hr, hm, -⟩ := decode_eq_ok.mp hd
    exact absurd hm (h r.1 (fst_mem_opcodeMap hr))

/-- Settles O3: the decoder is a lookup, and no two rows have one mnemonic. -/
theorem decodeFollowsOpcodeMap : Obligations.DecodeFollowsOpcodeMap := by
  refine fun w => ⟨fun name m k hrow => ⟨fun hm => ?_, ?_⟩, decode_eq_error_of_no_row⟩
  · obtain ⟨f, hr⟩ := exists_reader hrow
    exact ⟨f w, decode_of_row _ hr hm, mnemonic_of_row w _ hr⟩
  · rintro ⟨i, hi, hname⟩
    obtain ⟨r, hr, hm, rfl⟩ := decode_eq_ok.mp hi
    have hr1 : r.1 = (name, m, k) :=
      eq_of_mnemonic_eq _ (fst_mem_opcodeMap hr) _ hrow ((mnemonic_of_row w r hr).symm.trans hname)
    rwa [hr1] at hm

/-! ### A word from the fields read from it -/

theorem instBits_instField (w : Word) : instBits (instField w) = w.extractLsb' 22 4 :=
  (BitVec.ofNat_toNat ..).trans (BitVec.setWidth_eq _)

theorem regBits_rdField (w : Word) : regBits (rdField w) = w.extractLsb' 18 4 := rfl

theorem regBits_rs1Field (w : Word) : regBits (rs1Field w) = w.extractLsb' 14 4 := rfl

theorem regBits_rs2Field (w : Word) : regBits (rs2Field w) = w.extractLsb' 10 4 := rfl

theorem paramBits_fields (w : Word) : paramBits (classField w) (indexField w) = w.extractLsb' 0 10 := by
  rw [paramBits, classField, indexField, BitVec.ofNat_toNat, BitVec.ofNat_toNat, BitVec.setWidth_eq, BitVec.setWidth_eq]
  exact BitVec.extractLsb'_append_extractLsb'_eq_extractLsb' rfl

/-- FN of ENV is the gate when its other bits are zero (30_encoding.md R105). -/
theorem gateBits_gateField {w : Word} (h : w.extractLsb' 1 9 = 0#9) :
    (if gateField w then 1#10 else 0#10) = w.extractLsb' 0 10 := by
  have hcat : w.extractLsb' 1 9 ++ w.extractLsb' 0 1 = w.extractLsb' 0 10 :=
    BitVec.extractLsb'_append_extractLsb'_eq_extractLsb' rfl
  rw [← hcat, h, gateField, BitVec.getLsbD_eq_extractLsb']
  generalize w.extractLsb' 0 1 = g
  revert g
  decide

theorem instField_fits (w : Word) : instFits (instField w) := (w.extractLsb' 22 4).isLt

theorem paramFields_fit (w : Word) : paramFits (classField w) (indexField w) :=
  ⟨(w.extractLsb' 6 4).isLt, (w.extractLsb' 0 6).isLt⟩

/-- The used fields of a row's word are encoded back, and the mask fixes the others. -/
theorem encode_of_row {w : Word} :
    ∀ r ∈ opcodeRows, w &&& r.1.2.2 = r.1.2.1 → (r.2 w).wellFormed = true ∧ encode (r.2 w) = w := by
  refine List.forall_iff_forall_mem.mp ?_
  repeat' apply And.intro
  all_goals
    intro h
    refine ⟨by simp [Instr.wellFormed, instField_fits, paramFields_fit], Eq.trans ?_ (packWord_fields w)⟩
    simp [encode, field_of_masked h, instBits_instField, regBits_rdField, regBits_rs1Field, regBits_rs2Field,
      paramBits_fields, gateBits_gateField]

/-- Settles O2: a decoded word is in a row. -/
theorem encodeAfterDecode : Obligations.EncodeAfterDecode := by
  intro w i hi
  obtain ⟨r, hr, hm, rfl⟩ := decode_eq_ok.mp hi
  exact encode_of_row r hr hm

/-! ### The fields of an encoded word -/

section
variable {op : BitVec 6} {inst rd rs1 rs2 : BitVec 4}

@[simp] theorem gateField_packWord (g : Bool) :
    gateField (packWord op inst rd rs1 rs2 (if g then 1#10 else 0#10)) = g := by
  rw [gateField, packWord, BitVec.getLsbD_append]
  cases g <;> rfl

variable {u p : Nat} (h : paramFits u p)
include h

theorem classField_packWord : classField (packWord op inst rd rs1 rs2 (paramBits u p)) = u := by
  rw [classField, packWord, BitVec.extractLsb'_append_eq_of_add_le (by decide), paramBits,
    BitVec.extractLsb'_append_eq_left, BitVec.toNat_ofNat]
  exact Nat.mod_eq_of_lt h.1

theorem indexField_packWord : indexField (packWord op inst rd rs1 rs2 (paramBits u p)) = p := by
  rw [indexField, packWord, BitVec.extractLsb'_append_eq_of_add_le (by decide), paramBits,
    BitVec.extractLsb'_append_eq_right, BitVec.toNat_ofNat]
  exact Nat.mod_eq_of_lt h.2

end

/-- The word of an instruction decodes to it when the row with its mnemonic reads its operands back. -/
theorem decode_encode_of_row {i : Instr} {r : OpcodeRow} (n : Nat) (hn : opcodeRows[n]? = some r)
    (hname : r.1.1 = i.mnemonic) (hrow : Laws.EncodeUnderMask.Statement i) (hread : r.2 (encode i) = i) :
    decode (encode i) = .ok i := by
  have hr : r ∈ opcodeRows := List.mem_of_getElem? hn
  obtain ⟨row, hmem, hrowName, hm⟩ := hrow
  have hr1 : row = r.1 := eq_of_mnemonic_eq _ hmem _ (fst_mem_opcodeMap hr) (hrowName.trans hname.symm)
  exact decode_eq_ok.mpr ⟨r, hr, hr1 ▸ hm, hread⟩

open Laws.EncodeUnderMask in
theorem decode_encode {i : Instr} (hi : i.wellFormed = true) : decode (encode i) = .ok i := by
  have inst : ∀ {n : Nat}, decide (instFits n) = true → (instBits n).toNat = n := fun h =>
    instBits_toNat (of_decide_eq_true h)
  cases i with
  | nop => exact decode_encode_of_row 0 rfl rfl nop rfl
  | reset => exact decode_encode_of_row 1 rfl rfl reset rfl
  | prep s1 => exact decode_encode_of_row 2 rfl rfl (prep s1) (by simp [encode])
  | pset n s1 u p =>
    obtain ⟨hn, hp⟩ : instFits n ∧ paramFits u p := of_decide_eq_true hi
    exact decode_encode_of_row 3 rfl rfl (pset n s1 u p)
      (by simp [encode, instBits_toNat hn, classField_packWord hp, indexField_packWord hp])
  | pget n d u p =>
    obtain ⟨hn, hp⟩ : instFits n ∧ paramFits u p := of_decide_eq_true hi
    exact decode_encode_of_row 4 rfl rfl (pget n d u p)
      (by simp [encode, instBits_toNat hn, classField_packWord hp, indexField_packWord hp])
  | svfLp n d s1 => exact decode_encode_of_row 5 rfl rfl (svfLp n d s1) (by simp [encode, inst hi])
  | svfBp n d s1 => exact decode_encode_of_row 6 rfl rfl (svfBp n d s1) (by simp [encode, inst hi])
  | svfHp n d s1 => exact decode_encode_of_row 7 rfl rfl (svfHp n d s1) (by simp [encode, inst hi])
  | svfNotch n d s1 => exact decode_encode_of_row 8 rfl rfl (svfNotch n d s1) (by simp [encode, inst hi])
  | lad n d s1 => exact decode_encode_of_row 9 rfl rfl (lad n d s1) (by simp [encode, inst hi])
  | rev n d s1 => exact decode_encode_of_row 10 rfl rfl (rev n d s1) (by simp [encode, inst hi])
  | dly n d s1 => exact decode_encode_of_row 11 rfl rfl (dly n d s1) (by simp [encode, inst hi])
  | dlysz n s1 => exact decode_encode_of_row 12 rfl rfl (dlysz n s1) (by simp [encode, inst hi])
  | cho n d s1 => exact decode_encode_of_row 13 rfl rfl (cho n d s1) (by simp [encode, inst hi])
  | wt n d s1 => exact decode_encode_of_row 14 rfl rfl (wt n d s1) (by simp [encode, inst hi])
  | fm n d s1 s2 => exact decode_encode_of_row 15 rfl rfl (fm n d s1 s2) (by simp [encode, inst hi])
  | ks n d s1 => exact decode_encode_of_row 16 rfl rfl (ks n d s1) (by simp [encode, inst hi])
  | ksf n s1 => exact decode_encode_of_row 17 rfl rfl (ksf n s1) (by simp [encode, inst hi])
  | env n d g => exact decode_encode_of_row 18 rfl rfl (env n d g) (by simp [encode, inst hi])
  | lfo n d => exact decode_encode_of_row 19 rfl rfl (lfo n d) (by simp [encode, inst hi])
  | fadd d s1 s2 => exact decode_encode_of_row 20 rfl rfl (fadd d s1 s2) (by simp [encode])
  | fmul d s1 s2 => exact decode_encode_of_row 21 rfl rfl (fmul d s1 s2) (by simp [encode])
  | sclip d s1 => exact decode_encode_of_row 22 rfl rfl (sclip d s1) (by simp [encode])

/-- Settles O1: the word of an instruction lies in the row that reads the instruction back. -/
theorem decodeAfterEncode : Obligations.DecodeAfterEncode := fun _ => decode_encode

/-- Settles O4, by evaluation. -/
theorem specWordsDecode : Obligations.SpecWordsDecode := by
  unfold Obligations.SpecWordsDecode
  decide

/-! ### A reserved word never executes -/

/-- Nothing overlapping it, a rejected word is the readback and E_ILLEGAL_OP is recorded (R108). -/
theorem runCommand_of_reject {s : State} {w : Word} {e : DecodeReject} (hs : overlapping s.host = [])
    (hw : decode w = .error e) :
    runCommand w s = .next (finishCommand ((startCommand w s).record .illegalOp (opField w))) := by
  have hstart : serveAll (overlapping s.host) (startCommand w { s with host := afterOverlap s.host }) =
      startCommand w s := startedFrom_alone hs
  rw [runCommand, hstart, execWord, hw, raise_eq, mapNext_next]

/-- BUSY has risen and fallen, and the error is recorded unless one was before (60_exceptions.md R350, R352). -/
theorem recordError_while_busy (e : Err) (op : BitVec 6) {st : Status} (hb : st.busy = false) :
    { recordError e op { st with busy := true } with busy := false } =
      if st.err then st else { err := true, busy := false, cause := e.code, errop := op } := by
  obtain ⟨err, busy, cause, errop⟩ := st
  cases err <;> simp_all [recordError]

/-- Settles O7: the word is in no row, so the decoder rejects it. -/
theorem illegalWordRaisesIllegalOp : Obligations.IllegalWordRaisesIllegalOp := by
  refine ⟨fun s w early es hh hes hb hw => ?_, by decide, by decide⟩
  obtain ⟨e, he⟩ := decode_eq_error_of_no_row hw
  rw [step_commandWrite hh hb, runCommand_of_reject hes he]
  exact congrArg (fun st => Host.Outcome.next { s with host := es, cmd := w, status := st })
    (recordError_while_busy .illegalOp (opField w) hb)

end Sys2Proof.Machine
end

section
/-! PROOF. The control commands NOP, RESET and PREP (40_control.md R140 to R142). -/

namespace Sys2Proof.Machine

/-! ### RESET -/

theorem map_map_of_idempotent {α : Type} {f : α → α} (h : ∀ u, f (f u) = f u) (us : List α) :
    (us.map f).map f = us.map f := by
  rw [List.map_map]
  exact List.map_congr_left fun u _ => h u

theorem dlyClear_dlyClear (u : Dly) : dlyClear (dlyClear u) = dlyClear u := by
  simp only [dlyClear, bufClear_bufClear]

theorem ksClear_ksClear (u : Ks) : ksClear (ksClear u) = ksClear u := by
  simp only [ksClear, bufClear_bufClear]

/-- Only the clears of DLY and KS read what they clear: the buffer whose first SIZE words go. -/
theorem softReset_softReset (s : State) : softReset (softReset s) = softReset s := by
  have hsvf := map_map_of_idempotent (f := svfClear) (fun _ => rfl) s.svf
  have hlad := map_map_of_idempotent (f := ladClear) (fun _ => rfl) s.lad
  have hdly := map_map_of_idempotent dlyClear_dlyClear s.dly
  have hcho := map_map_of_idempotent (f := choClear) (fun _ => rfl) s.cho
  have hfm := map_map_of_idempotent (f := fmClear) (fun _ => rfl) s.fm
  have hks := map_map_of_idempotent ksClear_ksClear s.ks
  have henv := map_map_of_idempotent (f := envClear) (fun _ => rfl) s.env
  have hlfo := map_map_of_idempotent (f := lfoClear) (fun _ => rfl) s.lfo
  have hrev : revClear (revClear s.rev) = revClear s.rev := rfl
  simp only [softReset, hsvf, hlad, hrev, hdly, hcho, hfm, hks, henv, hlfo]

/-- Settles O21: every clear is idempotent. -/
theorem resetTwiceIsOnce : Obligations.ResetTwiceIsOnce := by
  intro s t h
  obtain rfl : softReset s = t := Host.Outcome.next.inj h
  exact congrArg Host.Outcome.next (softReset_softReset s)

/-! ### NOP -/

/-- Nothing overlapping it, a decoded word runs its command with BUSY = 1 (60_exceptions.md R350). -/
theorem runCommand_of_decode {s : State} {w : Word} {i : Instr} (hs : overlapping s.host = []) (hw : decode w = .ok i) :
    runCommand w s = mapNext finishCommand (exec i (startCommand w s)) := by
  have hstart : serveAll (overlapping s.host) (startCommand w { s with host := afterOverlap s.host }) =
      startCommand w s := startedFrom_alone hs
  rw [runCommand, hstart, execWord, hw]

/-- A command that changes nothing leaves the word in the readback, and BUSY falls to what it was. -/
theorem finishCommand_startCommand {s : State} (w : Word) (hb : s.status.busy = false) :
    finishCommand (startCommand w s) = { s with cmd := w } := by
  simp only [finishCommand, startCommand, ← hb]

/-- The mask of NOP's row fixes every bit. -/
theorem decode_of_opField_zero {w : Word} (hop : opField w = 0) (hw : w ≠ 0) : decode w = .error .mustBeZero := by
  have hrow : decode w = masked w 0xFFFFFFFF 0x00000000 .nop := by rw [decode, hop]; rfl
  rw [hrow, masked, show w &&& 0xFFFFFFFF = w from BitVec.and_allOnes, if_neg hw]

/-- Settles O23: BUSY rises and falls around a command that does nothing. -/
theorem nopRecordsOnlyItsWord : Obligations.NopRecordsOnlyItsWord := by
  refine ⟨fun s => ⟨rfl, fun early es hh hes hb => ?_⟩, fun w => decode_of_opField_zero⟩
  calc step s = runCommand 0 { s with host := es } := step_commandWrite hh hb
    _ = .next (finishCommand (startCommand 0 { s with host := es })) := runCommand_of_decode (i := .nop) hes rfl
    _ = .next { s with host := es, cmd := 0 } := congrArg Host.Outcome.next (finishCommand_startCommand 0 hb)

/-! ### PREP -/

theorem getElem?_deriveAll {s : State} {n : Nat} {u : Svf} (sr : Word) (hu : s.svf[n]? = some u) :
    (deriveAll s sr)[n]? = some (svfDerive s.build.trig (fun k => s.nan (svfDeriveSites * n + k)) sr u) := by
  simp only [deriveAll, List.getElem?_mapIdx, hu, Option.map_some]

theorem execPrep_refused {s1 : Reg} {s : State} (h : positiveSet (s.getX s1) = false) :
    execPrep s1 s = .next (s.record .paramRange 0x02) := by
  simp [execPrep, h]

/-- Buffer words are held by DLY, CHO, KS and REV only. -/
theorem sameWordsBut_of_sameBut {parts : List Part} {stored : BufId → Nat → Prop} {s t : State} (h : sameBut parts s t)
    (hd : .dly ∉ parts) (hc : .cho ∉ parts) (hk : .ks ∉ parts) (hr : .rev ∉ parts) : sameWordsBut stored s t :=
  fun b i _ => word_congr (h .dly hd) (h .cho hc) (h .ks hk) (h .rev hr) b i

/-- PREP's frame. -/
theorem prep_frame (s : State) (sr : Word) (us : List Svf) :
    frame [.sr, .svf, .draws] [] noStore s ((s.putSr sr).putSvfs us).drawn := by
  have hparts : sameBut [.sr, .svf, .draws] s ((s.putSr sr).putSvfs us).drawn := by
    intro q hq
    cases q <;> simp [Part.same] at hq ⊢
  exact ⟨hparts, sameXBut_of_eq rfl, sameWordsBut_of_sameBut hparts (by decide) (by decide) (by decide) (by decide)⟩

/-- R160 with the words of R19. -/
theorem svfDerive_eq (t : Trig) (nan : Nat → Word) (sr : Word) (u : Svf) :
    let c := minF u.fc (fMul (nan 0) 0x3EFAE148 sr)
    let a := fDiv (nan 2) (fMul (nan 1) 0x40490FDB c) sr
    svfDerive t nan sr u =
      { u with
        f := fMul (nan 4) 0x40000000 (sinF t (nan 3) a)
        qc := fDiv (nan 5) 0x3F800000 (maxF u.q 0x3F000000) } := by
  simp only [svfDerive, svfAngle, k049_eq, piF_eq, twoF_eq, oneF_eq, halfF_eq]

/-- Settles O24. -/
theorem prepSetsRateAndRederives : Obligations.PrepSetsRateAndRederives := by
  intro s1 s
  rw [← Bool.and_eq_true]
  refine ⟨fun h => ⟨_, execPrep_next h, rfl, ?_, fun n u hu => ⟨fun k => s.nan (svfDeriveSites * n + k), ?_⟩,
    prep_frame _ _ _⟩, fun h => ?_⟩
  · exact List.length_mapIdx
  · exact (getElem?_deriveAll _ hu).trans (congrArg some (svfDerive_eq ..))
  · exact execPrep_refused (Bool.eq_false_iff.mpr h)

end Sys2Proof.Machine
end

section
/-! PROOF. PSET's checks and PGET (40_control.md R144, R145), from how many numbers a class has and how many are RW. -/

namespace Sys2Proof.Machine

/-! ### How many parameters a class has (10_state.md R42 to R52) -/

/-- The RW numbers of a class are the first `rwCount`. -/
def rwCount (u : Nat) : Nat := [0, 2, 1, 5, 3, 5, 1, 4, 2, 4, 2].getD u 0

/-- The numbers of a class that name a register are the first `paramCount`. -/
def paramCount (u : Nat) : Nat := [6, 8, 9, 37, 5, 6, 1, 5, 6, 6, 2].getD u 0

theorem rwCount_le_paramCount {u : Nat} (hu : u < 11) : rwCount u ≤ paramCount u := by
  decide +revert

theorem access_eq {u : Nat} (hu : u < 11) (p : Nat) :
    access u p = if p < rwCount u then some .rw else if p < paramCount u then some .ro else none := by
  interval_cases u <;> rfl

theorem access_eq_rw_iff {u p : Nat} (hu : u < 11) : access u p = some .rw ↔ p < rwCount u := by
  rw [access_eq hu]
  split_ifs <;> simp_all

theorem access_eq_none_iff {u p : Nat} (hu : u < 11) : access u p = none ↔ paramCount u ≤ p := by
  have := rwCount_le_paramCount hu
  rw [access_eq hu]
  split_ifs <;> simp <;> omega

theorem lt_of_lt_count {s : State} {u n : Nat} (h : n < s.count u) : u < 11 := by
  by_contra hu
  obtain ⟨k, rfl⟩ := Nat.exists_eq_add_of_le' (Nat.not_lt.mp hu)
  exact absurd h (Nat.not_lt_zero n)

section
variable {s : State} {n p : Nat}

/-- A list of `k` rows has the numbers below `k`. -/
theorem eq_none_iff_of_rows {o : Option Word} {rows : List Word} {k : Nat} (h : o = rows[p]?) (hk : rows.length = k) :
    o = none ↔ k ≤ p := by rw [h, List.getElem?_eq_none_iff, hk]

theorem bind_eq_none_iff {α : Type} {us : List α} {get : α → Nat → Option Word} {k : Nat} (hn : n < us.length)
    (h : ∀ u, get u p = none ↔ k ≤ p) : us[n]?.bind (get · p) = none ↔ k ≤ p := by
  rw [List.getElem?_eq_getElem hn, Option.bind_some]
  exact h _

/-- `getParam` reads exactly the numbers below `paramCount`, of an existing unit. -/
theorem getParam_eq_none_iff {u : Nat} (hn : n < s.count u) : s.getParam u n p = none ↔ paramCount u ≤ p := by
  have hu := lt_of_lt_count hn
  interval_cases u
  · exact eq_none_iff_of_rows (glbGet_eq p s) rfl
  · exact bind_eq_none_iff hn fun w => eq_none_iff_of_rows (svfGet_eq p w) rfl
  · exact bind_eq_none_iff hn fun w => eq_none_iff_of_rows (ladGet_eq p w) rfl
  · exact eq_none_iff_of_rows (revGet_eq p s.build s.rev) (by simp [paramCount])
  · exact bind_eq_none_iff hn fun w => eq_none_iff_of_rows (dlyGet_eq p w) rfl
  · exact bind_eq_none_iff hn fun w => eq_none_iff_of_rows (choGet_eq p w) rfl
  · exact bind_eq_none_iff hn fun w => eq_none_iff_of_rows (wtGet_eq p w) rfl
  · exact bind_eq_none_iff hn fun w => eq_none_iff_of_rows (fmGet_eq p w) rfl
  · exact bind_eq_none_iff hn fun w => eq_none_iff_of_rows (ksGet_eq p w) rfl
  · exact bind_eq_none_iff hn fun w => eq_none_iff_of_rows (envGet_eq p w) rfl
  · exact bind_eq_none_iff hn fun w => eq_none_iff_of_rows (lfoGet_eq p w) rfl

/-- PGET knows the numbers that have an access (10_state.md R54). -/
theorem getParam_eq_none_iff_access {u : Nat} (hn : n < s.count u) : s.getParam u n p = none ↔ access u p = none :=
  (getParam_eq_none_iff hn).trans (access_eq_none_iff (lt_of_lt_count hn)).symm

end

/-! ### The checks (60_exceptions.md R356) -/

section
variable {n u p : Nat} {s : State}

theorem execPset_badClass (s1 : Reg) (hu : 11 ≤ u) : execPset n s1 u p s = .next (s.record .badParam 0x03) := by
  rw [execPset, if_pos hu, raise_eq]

theorem execPset_badInst (s1 : Reg) (hu : u < 11) (hn : s.count u ≤ n) :
    execPset n s1 u p s = .next (s.record .badInst 0x03) := by
  rw [execPset, if_neg (Nat.not_le.mpr hu), if_pos hn, raise_eq]

theorem execPset_badIndex (s1 : Reg) (hu : u < 11) (hn : n < s.count u) (ha : access u p = none) :
    execPset n s1 u p s = .next (s.record .badParam 0x03) := by
  simp [execPset, Nat.not_le.mpr hu, Nat.not_le.mpr hn, ha]

theorem execPset_readOnly (s1 : Reg) (hu : u < 11) (hn : n < s.count u) (ha : access u p = some .ro) :
    execPset n s1 u p s = .next (s.record .paramRO 0x03) := by
  simp [execPset, Nat.not_le.mpr hu, Nat.not_le.mpr hn, ha]

theorem execPset_badValue {s1 : Reg} (hu : u < 11) (hn : n < s.count u) (ha : access u p = some .rw)
    (hl : s.legal u n p (s.getX s1) = false) : execPset n s1 u p s = .next (s.record .paramRange 0x03) := by
  simp [execPset, Nat.not_le.mpr hu, Nat.not_le.mpr hn, ha, hl]

theorem execPget_badClass (d : Reg) (hu : 11 ≤ u) : execPget n d u p s = .next (s.record .badParam 0x04) := by
  rw [execPget, if_pos hu, raise_eq]

theorem execPget_badInst (d : Reg) (hu : u < 11) (hn : s.count u ≤ n) :
    execPget n d u p s = .next (s.record .badInst 0x04) := by
  rw [execPget, if_neg (Nat.not_le.mpr hu), if_pos hn, raise_eq]

theorem execPget_badIndex (d : Reg) (hu : u < 11) (hn : n < s.count u) (ha : access u p = none) :
    execPget n d u p s = .next (s.record .badParam 0x04) := by
  simp [execPget, Nat.not_le.mpr hu, Nat.not_le.mpr hn, (getParam_eq_none_iff_access hn).mpr ha]

end

/-- Settles O27, one lemma a check. -/
theorem psetChecksInOrder : Obligations.PsetChecksInOrder := fun _ s1 _ _ _ =>
  ⟨execPset_badClass s1, execPset_badInst s1, execPset_badIndex s1, execPset_readOnly s1, execPset_badValue⟩

/-! ### PGET -/

/-- PGET's frame. -/
theorem putX_frame (s : State) (d : Reg) (v : Word) : frame [.x] [d] noStore s (s.putX d v) := by
  have hparts : sameBut [.x] s (s.putX d v) := by
    intro q hq
    cases q <;> simp [Part.same] at hq ⊢
  exact ⟨hparts, sameXBut_of_set rfl, sameWordsBut_of_sameBut hparts (by decide) (by decide) (by decide) (by decide)⟩

/-- Settles O28: a number with an access is a number that reads. -/
theorem pgetReadsTheParameter : Obligations.PgetReadsTheParameter := by
  refine fun n d u p s => ⟨fun a hu hn ha => ?_, execPget_badClass d, execPget_badInst d, execPget_badIndex d⟩
  obtain ⟨v, hv⟩ : ∃ v, s.getParam u n p = some v := by
    refine Option.ne_none_iff_exists'.mp fun hnone => ?_
    cases ha.symm.trans ((getParam_eq_none_iff_access hn).mp hnone)
  exact ⟨s.putX d v, v, hv, execPget_next hu hn hv, s.putX_getX_same d v, putX_frame s d v⟩

end Sys2Proof.Machine
end

section
/-! PROOF. PSET stores one parameter and nothing else (40_control.md R144): a store updates the class's table of numbers at one
number, except that SVF rederives F and QC. -/

namespace Sys2Proof.Machine

/-! ### One unit -/

section
variable {p : Nat} {v : Word} (p' : Nat)

/-- A unit whose rows are the old ones with row `p` set reads back updated at `p`. -/
theorem update_of_rows {get get' : Nat → Option Word} {rows rows' : List Word} (h : ∀ q, get q = rows[q]?)
    (h' : ∀ q, get' q = rows'[q]?) (hp : p < rows.length) (hrows : rows' = rows.set p v) :
    get' p' = Function.update get p (some v) p' := by
  rw [h', hrows, List.getElem?_set, Function.update_apply, if_pos hp, h]
  simp only [eq_comm]

/-- `SvfDerive` writes F and QC only. -/
theorem svfGet_svfDerive (t : Trig) (nan : Nat → Word) (sr : Word) (u : Svf) (hp : ¬ (p' = 2 ∨ p' = 3)) :
    svfGet (svfDerive t nan sr u) p' = svfGet u p' := by
  rw [svfGet_eq, svfGet_eq]
  rcases p' with _ | _ | _ | _ | p'
  case succ.succ.zero => exact absurd (.inl rfl) hp
  case succ.succ.succ.zero => exact absurd (.inr rfl) hp
  all_goals rfl

theorem svfGet_svfSet (s : State) (u : Svf) (hp : p < 2) (hp' : ¬ (p' = 2 ∨ p' = 3)) :
    svfGet (svfSet s u p v) p' = Function.update (svfGet u) p (some v) p' := by
  interval_cases p
  · exact (svfGet_svfDerive p' _ _ _ { u with fc := v } hp').trans
      (update_of_rows p' (svfGet_eq · u) (svfGet_eq · _) (by simp) rfl)
  · exact (svfGet_svfDerive p' _ _ _ { u with q := v } hp').trans
      (update_of_rows p' (svfGet_eq · u) (svfGet_eq · _) (by simp) rfl)

theorem ladGet_ladSet (u : Lad) (hp : p < 1) : ladGet (ladSet u p v) p' = Function.update (ladGet u) p (some v) p' :=
  update_of_rows p' (ladGet_eq · u) (ladGet_eq · _) (by simp; omega) (by interval_cases p; rfl)

theorem revGet_revSet (b : Build) (u : Rev) (hp : p < 5) :
    revGet b (revSet u p v) p' = Function.update (revGet b u) p (some v) p' :=
  update_of_rows p' (revGet_eq · b u) (revGet_eq · b _) (by simp; omega) (by interval_cases p <;> rfl)

/-- DELAY is kept as a number below 2^32 and reads back as its pattern. -/
theorem dlyGet_dlySet (u : Dly) (hp : p < 3) : dlyGet (dlySet u p v) p' = Function.update (dlyGet u) p (some v) p' :=
  update_of_rows p' (dlyGet_eq · u) (dlyGet_eq · _) (by simp; omega) (by interval_cases p <;> simp [dlySet, uWord])

theorem choGet_choSet (u : Cho) (hp : p < 5) : choGet (choSet u p v) p' = Function.update (choGet u) p (some v) p' :=
  update_of_rows p' (choGet_eq · u) (choGet_eq · _) (by simp; omega) (by interval_cases p <;> rfl)

theorem wtGet_wtSet (u : Wt) (hp : p < 1) : wtGet (wtSet u p v) p' = Function.update (wtGet u) p (some v) p' :=
  update_of_rows p' (wtGet_eq · u) (wtGet_eq · _) (by simp; omega) (by interval_cases p; rfl)

theorem fmGet_fmSet (u : Fm) (hp : p < 4) : fmGet (fmSet u p v) p' = Function.update (fmGet u) p (some v) p' :=
  update_of_rows p' (fmGet_eq · u) (fmGet_eq · _) (by simp; omega) (by interval_cases p <;> rfl)

theorem ksGet_ksSet (u : Ks) (hp : p < 2) : ksGet (ksSet u p v) p' = Function.update (ksGet u) p (some v) p' :=
  update_of_rows p' (ksGet_eq · u) (ksGet_eq · _) (by simp; omega) (by interval_cases p <;> rfl)

theorem envGet_envSet (u : Env) (hp : p < 4) : envGet (envSet u p v) p' = Function.update (envGet u) p (some v) p' :=
  update_of_rows p' (envGet_eq · u) (envGet_eq · _) (by simp; omega) (by interval_cases p <;> rfl)

theorem lfoGet_lfoSet (u : Lfo) (hp : p < 2) : lfoGet (lfoSet u p v) p' = Function.update (lfoGet u) p (some v) p' :=
  update_of_rows p' (lfoGet_eq · u) (lfoGet_eq · _) (by simp; omega) (by interval_cases p <;> rfl)

end

/-! ### One unit among its class -/

section
variable {s : State} {u n p p' : Nat} {v : Word}

theorem bind_modify_same {α : Type} {us : List α} {get : α → Nat → Option Word} {set : α → α} (hn : n < us.length)
    (h : ∀ u, get (set u) p' = Function.update (get u) p (some v) p') :
    (us.modify n set)[n]?.bind (get · p') = Function.update (fun q => us[n]?.bind (get · q)) p (some v) p' := by
  have hu := List.getElem?_eq_getElem hn
  simp only [getElem?_modify_same set hu, hu, Option.bind_some, h]

/-- The unit stored to reads as before but for the number stored; SVF's F and QC are left open. -/
theorem getParam_setParam_same (hn : n < s.count u) (hp : p < rwCount u) (hp' : ¬ (u = 1 ∧ (p' = 2 ∨ p' = 3))) :
    (s.setParam u n p v).getParam u n p' = Function.update (s.getParam u n) p (some v) p' := by
  have hu := lt_of_lt_count hn
  interval_cases u
  · exact absurd hp (Nat.not_lt_zero p)
  · exact bind_modify_same hn fun w => svfGet_svfSet p' s w hp fun h => hp' ⟨rfl, h⟩
  · exact bind_modify_same hn fun w => ladGet_ladSet p' w hp
  · exact revGet_revSet p' s.build s.rev hp
  · exact bind_modify_same hn fun w => dlyGet_dlySet p' w hp
  · exact bind_modify_same hn fun w => choGet_choSet p' w hp
  · exact bind_modify_same hn fun w => wtGet_wtSet p' w hp
  · exact bind_modify_same hn fun w => fmGet_fmSet p' w hp
  · exact bind_modify_same hn fun w => ksGet_ksSet p' w hp
  · exact bind_modify_same hn fun w => envGet_envSet p' w hp
  · exact bind_modify_same hn fun w => lfoGet_lfoSet p' w hp

/-- Another unit of the class reads as before; there is one REV only. -/
theorem getParam_setParam_other_instance {n' : Nat} (hne : n' ≠ n) (hu3 : u ≠ 3) :
    (s.setParam u n p v).getParam u n' p' = s.getParam u n' p' := by
  unfold State.setParam
  split
  case h_3 => exact absurd rfl hu3
  case h_11 => rfl
  all_goals simp only [State.getParam, List.getElem?_modify_ne _ _ hne.symm]

/-! ### The other classes -/

/-- A class's parameters are read from its part and from the build. -/
theorem getParam_congr {t : State} (h : ∀ q ∈ Part.build :: classPart u, q.same s t) : t.getParam u n p = s.getParam u n p := by
  unfold State.getParam
  split
  case h_1 =>
    rw [glbGet_eq, glbGet_eq, show t.sr = s.sr from h .sr (by decide), show t.build = s.build from h .build (by decide)]
  case h_4 =>
    rw [show t.rev = s.rev from h .rev (by decide), show t.build = s.build from h .build (by decide)]
  all_goals simp [classPart, Part.same] at h ⊢ <;> simp [h]

/-- A store changes its class's part, and draws NaN bits for SVF. -/
theorem setParam_sameBut (s : State) (u n p : Nat) (v : Word) : sameBut (.draws :: classPart u) s (s.setParam u n p v) := by
  unfold State.setParam
  split
  all_goals
    intro q hq
    cases q <;> simp [classPart, Part.same] at hq ⊢

/-- A class with RW numbers shares no part with another class, and the build is no part of it. -/
theorem disjoint_classPart : ∀ u u' : Fin 11, u ≠ 0 → u' ≠ u →
    ∀ q ∈ Part.build :: classPart u', q ∉ Part.draws :: classPart u := by decide

/-- The other classes read as before. -/
theorem getParam_setParam_other_class {u' n' : Nat} (hu : u < 11) (hp : p < rwCount u) (hu' : u' < 11) (hne : u' ≠ u) :
    (s.setParam u n p v).getParam u' n' p' = s.getParam u' n' p' := by
  have hu0 : u ≠ 0 := by
    rintro rfl
    exact absurd hp (Nat.not_lt_zero p)
  refine getParam_congr fun q hq => setParam_sameBut s u n p v q ?_
  exact disjoint_classPart ⟨u, hu⟩ ⟨u', hu'⟩ (Fin.ne_of_val_ne hu0) (Fin.ne_of_val_ne hne) q hq

end

/-! ### The frame -/

theorem revSet_combs (u : Rev) (p : Nat) (v : Word) : (revSet u p v).combs = u.combs := by
  unfold revSet
  split <;> rfl

theorem revSet_aps (u : Rev) (p : Nat) (v : Word) : (revSet u p v).aps = u.aps := by
  unfold revSet
  split <;> rfl

theorem dlySet_buf (p : Nat) (v : Word) (u : Dly) : (dlySet u p v).buf = u.buf := by
  unfold dlySet
  split <;> rfl

theorem choSet_buf (p : Nat) (v : Word) (u : Cho) : (choSet u p v).buf = u.buf := by
  unfold choSet
  split <;> rfl

theorem ksSet_buf (p : Nat) (v : Word) (u : Ks) : (ksSet u p v).buf = u.buf := by
  unfold ksSet
  split <;> rfl

/-- What a modification of a unit keeps reads as before in every unit. -/
theorem map_getElem?_modify {α γ : Type} {f : α → α} {g : α → γ} (h : ∀ u, g (f u) = g u) (us : List α) (n m : Nat) :
    (us.modify n f)[m]?.map g = us[m]?.map g := by
  simp only [List.getElem?_modify, Option.map_eq_map, Option.map_map]
  congr 1
  funext u
  simp only [Function.comp_apply]
  split
  · exact h u
  · rfl

/-- A parameter is no buffer word. -/
theorem setParam_word (s : State) (u n p : Nat) (v : Word) (b : BufId) (i : Nat) :
    (s.setParam u n p v).word b i = s.word b i := by
  unfold State.setParam
  split
  case h_3 => cases b <;> simp [State.word, State.putRev, revSet_combs, revSet_aps]
  case h_4 => cases b <;> simp [State.word, map_getElem?_modify, dlySet_buf]
  case h_5 => cases b <;> simp [State.word, map_getElem?_modify, choSet_buf]
  case h_8 => cases b <;> simp [State.word, map_getElem?_modify, ksSet_buf]
  all_goals exact word_congr rfl rfl rfl rfl b i

theorem setParam_x (s : State) (u n p : Nat) (v : Word) : (s.setParam u n p v).x = s.x := by
  unfold State.setParam
  split <;> rfl

theorem setParam_frame (s : State) (u n p : Nat) (v : Word) :
    frame (.draws :: classPart u) [] noStore s (s.setParam u n p v) :=
  ⟨setParam_sameBut s u n p v, sameXBut_of_eq (setParam_x s u n p v), fun b i _ => setParam_word s u n p v b i⟩

/-- Settles O25: another number is of the same unit, of another unit or of another class. -/
theorem psetStoresTheParameter : Obligations.PsetStoresTheParameter := by
  intro n s1 u p s hu hn ha hl
  have hp : p < rwCount u := (access_eq_rw_iff hu).mp ha
  refine ⟨_, execPset_next hu hn ha hl, ?_, fun u' n' p' hn' hother hderived => ?_, setParam_frame s u n p _⟩
  · rw [getParam_setParam_same hn hp, Function.update_self]
    rintro ⟨rfl, hp23⟩
    have : p < 2 := hp
    omega
  by_cases hcl : u' = u
  · subst hcl
    by_cases hinst : n' = n
    · subst hinst
      rw [getParam_setParam_same hn hp fun h => hderived ⟨h.1, h.1, rfl, h.2⟩,
        Function.update_of_ne fun h => hother ⟨rfl, rfl, h⟩]
    · refine getParam_setParam_other_instance hinst ?_
      rintro rfl
      exact hinst ((Nat.lt_one_iff.mp hn').trans (Nat.lt_one_iff.mp hn).symm)
  · exact getParam_setParam_other_class hu hp (lt_of_lt_count hn') hcl

end Sys2Proof.Machine
end

section
/-! PROOF. The filters (40_control.md R144 and 41_filters.md): PSET's derivation of F and QC, the SVF commands and LAD, from the
step function of each unit. -/

namespace Sys2Proof.Machine

/-! ### The checks and the frame of a command with one sample operand -/

/-- The unit number is checked before the operand (60_exceptions.md R356). -/
theorem refusals_of_onInst_onSample {α : Type} {i : Instr} {us : List α} {n : Nat} {r : Reg} {s : State}
    {body : α → Word → Result} (h : exec i s = onInst i.opcode us n s fun u => onSample i.opcode r s (body u)) :
    refusals i us.length n [r] s := by
  refine ⟨fun hn => h.trans (onInst_none hn), fun hn hfin => ?_⟩
  obtain ⟨q, hq, hf⟩ := hfin
  obtain rfl := List.mem_singleton.mp hq
  exact h.trans ((onInst_some (List.getElem?_eq_getElem hn)).trans (onSample_nonfinite hf))

/-- The frame of a command that writes one register and no part that holds buffers. -/
theorem frame_of_sameBut_of_set {parts : List Part} {s t : State} {d : Reg} {v : Word} (h : sameBut parts s t)
    (hx : t.x = s.x.set d v) (hb : ∀ q ∈ [Part.dly, .cho, .ks, .rev], q ∉ parts) : frame parts [d] noStore s t :=
  ⟨h, sameXBut_of_set hx, sameWordsBut_of_sameBut h (hb .dly (by decide)) (hb .cho (by decide)) (hb .ks (by decide))
    (hb .rev (by decide))⟩

/-! ### PSET of SVF FC and Q -/

/-- PSET of an RW parameter of an existing SVF replaces that one by `svfSet`. -/
theorem exec_pset_svf {n p : Nat} {s1 : Reg} {s : State} {u : Svf} (hu : s.svf[n]? = some u) (hp : p < 2)
    (hl : s.legal 1 n p (s.getX s1) = true) :
    ∃ t, exec (.pset n s1 1 p) s = .next t ∧ t.svf[n]? = some (svfSet s u p (s.getX s1)) ∧ sameListBut n s.svf t.svf :=
  ⟨_, execPset_next (by decide) (List.getElem?_eq_some_iff.mp hu).1 ((access_eq_rw_iff (by decide)).mpr hp) hl,
    getElem?_modify_same _ hu, sameListBut_modify _ _ _⟩

/-- Settles O26: the SVF stored is `SvfDerive` of the old one with FC or Q replaced. -/
theorem psetRederivesSvf : Obligations.PsetRederivesSvf := by
  intro n s1 p s u hu hp hl
  obtain ⟨t, ht, hn, hother⟩ := exec_pset_svf hu hp hl
  refine ⟨t, ht, s.nan, _, hn, ?_⟩
  interval_cases p
  all_goals
    rw [svfSet, svfDerive_eq]
    exact ⟨rfl, rfl, rfl, rfl, rfl, rfl, rfl, rfl, hother⟩

/-! ### The SVF commands -/

theorem putSvf_putX_frame (n : Nat) (d : Reg) (s : State) (u : Svf) (v : Word) :
    frame [.x, .svf, .draws] [d] noStore s ((s.putSvf n u).putX d v).drawn := by
  refine frame_of_sameBut_of_set (fun q hq => ?_) rfl (by decide)
  cases q <;> simp [Part.same] at hq ⊢

/-- What the four SVF commands have in common: the step is the same whichever output is selected. -/
theorem svfCommand_steps (out : Svf → Word) {n : Nat} {d s1 : Reg} {s : State} {u : Svf} (hu : s.svf[n]? = some u)
    (hf : isFinite (s.getX s1) = true) :
    ∃ t, svfCommand out n d s1 s = .next t ∧ t.svf[n]? = some (svfStep s.nan (s.getX s1) u) ∧
      t.getX d = out (svfStep s.nan (s.getX s1) u) ∧ sameListBut n s.svf t.svf ∧
      frame [.x, .svf, .draws] [d] noStore s t :=
  ⟨_, svfCommand_next hu hf, getElem?_set_same hu, State.putX_getX_same _ _ _, sameListBut_set _ _ _,
    putSvf_putX_frame n d s _ _⟩

/-- Settles O29: the four commands run one step and differ in the field they return. -/
theorem svfStepAndOutput : Obligations.SvfStepAndOutput := by
  refine fun n d s1 s => ⟨fun i hi => ?_, fun u hu hf =>
    ⟨svfStep s.nan (s.getX s1) u, rfl, rfl, rfl, rfl, rfl, rfl, rfl, rfl, fun i out hio => ?_⟩⟩
  · simp only [List.mem_cons, List.not_mem_nil, or_false] at hi
    rcases hi with rfl | rfl | rfl | rfl <;> exact refusals_of_onInst_onSample rfl
  · rcases hio with ⟨rfl, rfl⟩ | ⟨rfl, rfl⟩ | ⟨rfl, rfl⟩ | ⟨rfl, rfl⟩
    · exact svfCommand_steps Svf.low hu hf
    · exact svfCommand_steps Svf.band hu hf
    · exact svfCommand_steps Svf.high hu hf
    · exact svfCommand_steps Svf.notch hu hf

/-! ### LAD -/

theorem putLad_putX_frame (n : Nat) (d : Reg) (s : State) (u : Lad) (v : Word) :
    frame [.x, .lad, .draws] [d] noStore s ((s.putLad n u).putX d v).drawn := by
  refine frame_of_sameBut_of_set (fun q hq => ?_) rfl (by decide)
  cases q <;> simp [Part.same] at hq ⊢

/-- The entries of the vectors LAD stores, in the order of R170. -/
theorem ladStep_entries (t : Trig) (nan : Nat → Word) (inp : Word) (u : Lad) :
    let u' := ladStep t nan inp u
    u'.delay[0] = tanhF t (nan 3) (fSub (nan 2) inp (tanhF t (nan 1) (fMul (nan 0) u.fb u.stage[3]))) ∧
    u'.stage[0] = fSub (nan 4) u'.delay[0] u.delay[0] ∧ u'.delay[1] = u'.stage[0] ∧
    u'.stage[1] = fSub (nan 5) u'.delay[1] u.delay[1] ∧ u'.delay[2] = u'.stage[1] ∧
    u'.stage[2] = fSub (nan 6) u'.delay[2] u.delay[2] ∧ u'.delay[3] = u'.stage[2] ∧
    u'.stage[3] = fSub (nan 7) u'.delay[3] u.delay[3] ∧ u'.fb = u.fb := by
  simp [ladStep]

/-- Settles O30: the entries of the stored vectors are the lines of R170. -/
theorem ladderStep : Obligations.LadderStep := by
  refine fun n d s1 s => ⟨refusals_of_onInst_onSample rfl, fun u hu hf => ?_⟩
  obtain ⟨hd0, hs0, hd1, hs1, hd2, hs2, hd3, hs3, hfb⟩ := ladStep_entries s.build.trig s.nan (s.getX s1) u
  exact ⟨_, _, execLad_next hu hf, getElem?_set_same hu, hd0, hs0, hd1, hs1, hd2, hs2, hd3, hs3, hfb,
    State.putX_getX_same _ _ _, sameListBut_set _ _ _, putLad_putX_frame n d s _ _⟩

end Sys2Proof.Machine
end

section
/-! PROOF. The reverb (42_reverb.md): REV's comb sum and allpass signals as the sequences R191 runs through, the units it stores,
and its frame. -/

namespace Sys2Proof.Machine

section
variable (b : Build) (nan : Nat → Word) (inp : Word) (r : Rev)

/-! ### The running sum and the signal between the allpasses -/

/-- `acc` of R191 before comb `c`: the sum of the combs below `c`; at 8, of them all. -/
def combAcc (c : Fin 9) : Word :=
  ((List.finRange 8).take c.val).foldl (fun acc (c : Fin 8) => fAdd (nan (8 * c.val + 7)) acc (combTap r.combs[c])) zero

theorem combAcc_zero : combAcc nan r 0 = 0 := rfl

theorem combAcc_succ (c : Fin 8) :
    combAcc nan r c.succ = fAdd (nan (8 * c.val + 7)) (combAcc nan r c.castSucc) (combTap r.combs[c]) := by
  rw [combAcc, Fin.val_succ, List.take_succ_eq_append_getElem (by simp), List.foldl_append, List.getElem_finRange]
  rfl

theorem combAcc_last : combAcc nan r 8 = combSum nan r := by
  rw [combAcc, List.take_of_length_le (by simp), combSum]

/-- Allpass `a` on the signal `sig`, with its own NaN draws. -/
def apAt (a : Fin 4) (sig : Word) : Word × Allpass :=
  apStep (fun k => nan (65 + 4 * a.val + k)) r.apfb b.apLen[a] sig r.aps[a]

/-- `s` of R191 before allpass `a`; at 4, the signal after the last one. -/
def apSignal : Fin 5 → Word :=
  Fin.induction (motive := fun _ => Word) (fMul (nan 64) (combSum nan r) eighthF) fun a sig => (apAt b nan r a sig).1

theorem apSignal_zero : apSignal b nan r 0 = fMul (nan 64) (combAcc nan r 8) eighthF := by
  rw [combAcc_last]
  exact Fin.induction_zero _ _

theorem apSignal_succ (a : Fin 4) : apSignal b nan r a.succ = (apAt b nan r a (apSignal b nan r a.castSucc)).1 :=
  Fin.induction_succ _ _ a

/-! ### What REV stores and returns -/

theorem revStep_comb (c : Fin 8) : (revStep b nan inp r).2.combs[c] =
    combStep (fun k => nan (8 * c.val + k)) r b.combLen[c] inp r.combs[c] :=
  Vector.getElem_ofFn _

/-- Each allpass runs on the signal the one before it puts out. -/
theorem revStep_ap (a : Fin 4) : (revStep b nan inp r).2.aps[a] = (apAt b nan r a (apSignal b nan r a.castSucc)).2 := by
  fin_cases a <;> rfl

theorem revStep_out : (revStep b nan inp r).1 = fMul (nan 81) (apSignal b nan r 4) r.wet := by
  rw [revStep]
  rfl

end

/-! ### The frame -/

section
variable (s : State) (inp : Word)

/-- Of the buffer words, REV changes the one at each comb's and each allpass's index. -/
theorem sameWordsBut_revStep :
    sameWordsBut
      (fun b i => (∃ c : Fin 8, b = .comb c ∧ i = s.rev.combs[c].idx) ∨ ∃ a : Fin 4, b = .ap a ∧ i = s.rev.aps[a].idx)
      s (s.putRev (revStep s.build s.nan inp s.rev).2) := by
  intro b i hn
  cases b with
  | dly n => rfl
  | cho n => rfl
  | ks n => rfl
  | comb c =>
    simp only [State.word, State.putRev_rev, revStep_comb]
    exact bufRead_bufWrite_other _ _ fun hi => hn (.inl ⟨c, rfl, hi⟩)
  | ap a =>
    simp only [State.word, State.putRev_rev, revStep_ap]
    exact bufRead_bufWrite_other _ _ fun hi => hn (.inr ⟨a, rfl, hi⟩)

theorem putRev_putX_frame (d : Reg) (v : Word) {r : Rev} {stored : BufId → Nat → Prop}
    (h : sameWordsBut stored s (s.putRev r)) :
    frame [.x, .rev, .draws] [d] stored s ((s.putRev r).putX d v).drawn := by
  refine ⟨fun q hq => ?_, sameXBut_of_set rfl, fun b i hn => (word_congr rfl rfl rfl rfl b i).trans (h b i hn)⟩
  cases q <;> simp [Part.same] at hq ⊢

end

/-- Settles O32: the sums and the signals are the sequences `combAcc` and `apSignal`, and the words stored read back because the
memories are canonical. -/
theorem reverbStep : Obligations.ReverbStep := by
  refine fun d s1 s => ⟨fun n => refusals_of_onInst_onSample (us := [s.rev]) rfl, fun hs hf => ?_⟩
  obtain ⟨-, ⟨hcombs, haps⟩, -⟩ := hs
  refine ⟨_, execRev_next hf, fun c => ?_,
    ⟨combAcc s.nan s.rev, apSignal s.build s.nan s.rev, combAcc_zero _ _, combAcc_succ _ _, apSignal_zero _ _ _, fun a => ?_,
      (State.putX_getX_same _ _ _).trans (revStep_out _ _ _ _)⟩,
    rfl, rfl, rfl, rfl, rfl, putRev_putX_frame s d _ (sameWordsBut_revStep s _)⟩
  · obtain ⟨-, hwf, -⟩ := hcombs c
    simp only [State.word, State.drawn_rev, State.putX_rev, State.putRev_rev, revStep_comb]
    exact ⟨rfl, bufRead_bufWrite_same hwf _ _, rfl⟩
  · obtain ⟨-, hwf, -⟩ := haps a
    simp only [State.word, State.drawn_rev, State.putX_rev, State.putRev_rev, revStep_ap]
    exact ⟨bufRead_bufWrite_same hwf _ _, apSignal_succ _ _ _ a, rfl⟩

end Sys2Proof.Machine
end

section
/-! PROOF. The delay lines (43_delay.md): the chorus delay stays in its clamp, and DLY, DLYSZ and CHO from the step function of
each unit. -/

namespace Sys2Proof.Machine

/-! ### The chorus delay -/

/-- A product with a factor in `[-1, 1]` does not overflow. -/
theorem isFinite_fMul_of_abs_le_one {nan a b : Word} (ha : isFinite a = true) (h0 : 0 ≤ valueOf a) (hb : isFinite b = true)
    (h1 : |valueOf b| ≤ 1) : isFinite (fMul nan a b) = true := by
  refine ((fMul_roundsTo ha hb).abs_valueOf_le ha ?_).1
  rw [abs_mul, abs_of_nonneg h0]
  exact mul_le_of_le_one_right h0 h1

theorem sinF_bounds {t : Trig} {nan x : Word} (h : isFinite x = true) :
    isFinite (sinF t nan x) = true ∧ |valueOf (sinF t nan x)| ≤ 1 := by
  rw [← valueOf_one]
  exact (absAtMost_iff_abs (by decide) (by decide)).mp (sinF_absAtMost_one h)

theorem isNaN_minF {a b : Word} (ha : isNaN a = false) (hb : isNaN b = false) : isNaN (minF a b) = false := by
  unfold minF
  split <;> assumption

theorem isNaN_maxF {a b : Word} (ha : isNaN a = false) (hb : isNaN b = false) : isNaN (maxF a b) = false := by
  unfold maxF
  split <;> assumption

/-- The clamp to `[0, hi]` takes an infinity to a finite word too. -/
theorem clamp_bounds {v hi : Word} (hv : isNaN v = false) (hhi : isFinite hi = true) (h0 : 0 ≤ valueOf hi) :
    let c := minF (maxF v 0x00000000) hi
    isFinite c = true ∧ 0 ≤ valueOf c ∧ valueOf c ≤ valueOf hi := by
  intro c
  have hzero : isNaN 0x00000000 = false := by decide
  have hval : valueOf c = min (max (valueOf v) 0) (valueOf hi) := by
    rw [valueOf_minF (isNaN_maxF hv hzero) (isNaN_of_isFinite hhi), valueOf_maxF hv hzero, valueOf_zero]
  have hlo : 0 ≤ valueOf c := hval ▸ le_min (le_max_right _ _) h0
  have hup : valueOf c ≤ valueOf hi := hval ▸ min_le_right _ _
  have hmag : magBits c ≤ magBits hi := by rwa [← abs_valueOf_le_iff, abs_of_nonneg hlo, abs_of_nonneg h0]
  exact ⟨isFinite_iff.mpr (hmag.trans_lt (isFinite_iff.mp hhi)), hlo, hup⟩

theorem valueOf_4094 : valueOf 0x457FE000 = 4094 := by
  have hs : signBit 0x457FE000 = false := by decide
  have he : expField 0x457FE000 = 138 := by decide
  have hf : fracField 0x457FE000 = 0x7FE000 := by decide
  rw [valueOf_layout, hs, he, hf]
  norm_num

/-- R216 with the words of R19. -/
theorem choDelay_eq (t : Trig) (nan : Nat → Word) (u : Cho) :
    choDelay t nan u =
      minF (maxF (fAdd (nan 3) u.base (fMul (nan 2) u.depth (sinF t (nan 1) (fMul (nan 0) 0x40C90FDB u.lfoph))))
        0x00000000) 0x457FE000 := by
  simp only [choDelay, twoPiF_eq, zero_eq, f4094_eq]

/-- The sum the chorus clamps can overflow but is no NaN. -/
theorem isNaN_choDelay_sum (t : Trig) (nan : Nat → Word) {u : Cho} (hb : nonnegSet u.base = true)
    (hd : nonnegSet u.depth = true) (hl : unitOpenSet u.lfoph = true) :
    isNaN (fAdd (nan 3) u.base (fMul (nan 2) u.depth (sinF t (nan 1) (fMul (nan 0) 0x40C90FDB u.lfoph)))) = false := by
  obtain ⟨hb, -⟩ := nonnegSet_iff.mp hb
  obtain ⟨hd, hd0⟩ := nonnegSet_iff.mp hd
  obtain ⟨hl, hl0, hl1⟩ := unitOpenSet_iff.mp hl
  have hphase : isFinite (fMul (nan 0) 0x40C90FDB u.lfoph) = true :=
    isFinite_fMul_of_abs_le_one (by decide) (valueOf_nonneg (by decide)) hl (by rw [abs_of_nonneg hl0]; exact hl1.le)
  obtain ⟨hm, hm1⟩ := sinF_bounds (t := t) (nan := nan 1) hphase
  exact (fAdd_roundsTo hb (isFinite_fMul_of_abs_le_one hd hd0 hm hm1)).1

/-- Settles O36: the sum is no NaN, and the clamp takes every other word into `[0, 4094]`. -/
theorem chorusDelayClamped : Obligations.ChorusDelayClamped := by
  intro t nan u hb hd hl
  rw [choDelay_eq]
  obtain ⟨hf, h0, h1⟩ := clamp_bounds (hi := 0x457FE000) (isNaN_choDelay_sum t nan hb hd hl) (by decide)
    (valueOf_nonneg (by decide))
  have hn := isNaN_of_isFinite hf
  refine ⟨hf, ?_, (fLe_iff hn (by decide)).mpr h1, ?_⟩
  · rwa [fLe_iff (by decide) hn, valueOf_zero]
  · rw [toInt_floorF hf, Int.toNat_le]
    rw [valueOf_4094] at h1
    exact Int.floor_le_iff.mpr (h1.trans_lt (by norm_num))

/-! ### Ring positions and words of one unit -/

/-- The ring position is the Euclidean remainder of R83. -/
theorem ringIndex_cast (w d : Nat) {L : Nat} (h : 0 < L) : (ringIndex w d L : Int) = ((w : Int) - d) % L :=
  Int.toNat_of_nonneg (Int.emod_nonneg _ (by omega))

theorem word_dly {s : State} {n : Nat} {u : Dly} (hu : s.dly[n]? = some u) (i : Nat) :
    s.word (.dly n) i = bufRead u.buf i := by
  simp [State.word, hu]

theorem word_cho {s : State} {n : Nat} {u : Cho} (hu : s.cho[n]? = some u) (i : Nat) :
    s.word (.cho n) i = bufRead u.buf i := by
  simp [State.word, hu]

/-! ### DLY -/

theorem putDly_putX_frame {s : State} {n : Nat} {u v : Dly} {stored : Nat → Prop} (d : Reg) (w : Word)
    (hu : s.dly[n]? = some u) (hb : ∀ i, ¬ stored i → bufRead v.buf i = bufRead u.buf i) :
    frame [.x, .dly, .draws] [d] (fun b i => b = .dly n ∧ stored i) s ((s.putDly n v).putX d w).drawn := by
  refine ⟨fun q hq => ?_, sameXBut_of_set rfl, fun b i hn =>
    (word_congr rfl rfl rfl rfl b i).trans (sameWordsBut_putDly hu hb b i hn)⟩
  cases q <;> simp [Part.same] at hq ⊢

/-- The lines of R211, with the word read at position `r`. -/
theorem dlyStep_eq (nan : Nat → Word) (inp : Word) (u : Dly) :
    let dl := bufRead u.buf (ringIndex u.wptr u.delay u.size)
    dlyStep nan inp u =
      (fAdd (nan 5) (fMul (nan 3) inp (fSub (nan 2) 0x3F800000 u.mix)) (fMul (nan 4) dl u.mix),
        { u with
          wptr := (u.wptr + 1) % u.size
          buf := bufWrite u.buf u.wptr (fAdd (nan 1) inp (fMul (nan 0) dl u.fb)) }) := by
  simp only [dlyStep, dryWet, oneF_eq, Nat.reduceAdd]

/-- Settles O33: the word stored reads back because the memory is canonical. -/
theorem delayLineStep : Obligations.DelayLineStep := by
  refine fun n d s1 s => ⟨refusals_of_onInst_onSample rfl, fun u hs hu hf => ?_⟩
  obtain ⟨-, -, hdly, -⟩ := hs
  obtain ⟨-, -, -, hwptr, hwf, -⟩ := hdly u (List.mem_of_getElem? hu)
  have hexec := execDly_next (d := d) hu hf
  rw [dlyStep_eq] at hexec
  refine ⟨_, ringIndex u.wptr u.delay u.size, hexec, ringIndex_cast _ _ (by omega), ⟨?_, ?_⟩, ⟨_, getElem?_set_same hu⟩,
    sameListBut_set _ _ _, putDly_putX_frame d _ hu fun i hi => bufRead_bufWrite_other _ _ hi⟩
  · rw [word_dly hu, word_dly (getElem?_set_same hu)]
    exact bufRead_bufWrite_same hwf _ _
  · rw [word_dly hu]
    exact State.putX_getX_same _ _ _

/-! ### DLYSZ -/

theorem execDlysz_size {n : Nat} {s1 : Reg} {s : State} {u : Dly} (hu : s.dly[n]? = some u)
    (h : s.getU s1 < 1 ∨ s.build.dlyMax < s.getU s1) : execDlysz n s1 s = .next (s.record .size 0x11) := by
  rw [execDlysz, onInst_some hu]
  exact if_pos h

theorem putDly_dlyResize_frame {s : State} {n : Nat} {u : Dly} (m : Nat) (hu : s.dly[n]? = some u) :
    frame [.dly] [] (fun b i => b = .dly n ∧ i < m) s (s.putDly n (dlyResize m u)) := by
  refine ⟨fun q hq => ?_, sameXBut_of_eq rfl,
    sameWordsBut_putDly hu fun i hi => bufRead_bufClear_ge _ (Nat.le_of_not_lt hi)⟩
  cases q <;> simp [Part.same] at hq ⊢

/-- Settles O34: clearing leaves 0 in the words below the length and nothing else. -/
theorem delayLineResize : Obligations.DelayLineResize := by
  refine fun n s1 s => ⟨⟨fun hn => onInst_none hn, fun _ h => by simp at h⟩, fun u hu =>
    ⟨fun h1 h2 => ⟨_, execDlysz_next hu h1 h2, ⟨_, getElem?_set_same hu⟩, fun i hi => ?_, sameListBut_set _ _ _,
      putDly_dlyResize_frame _ hu⟩, execDlysz_size hu⟩⟩
  exact (word_dly (getElem?_set_same hu) i).trans (bufRead_bufClear_lt _ hi)

/-! ### CHO -/

theorem putCho_putX_frame {s : State} {n : Nat} {u v : Cho} {stored : Nat → Prop} (d : Reg) (w : Word)
    (hu : s.cho[n]? = some u) (hb : ∀ i, ¬ stored i → bufRead v.buf i = bufRead u.buf i) :
    frame [.x, .cho, .draws] [d] (fun b i => b = .cho n ∧ stored i) s ((s.putCho n v).putX d w).drawn := by
  refine ⟨fun q hq => ?_, sameXBut_of_set rfl, fun b i hn =>
    (word_congr rfl rfl rfl rfl b i).trans (sameWordsBut_putCho hu hb b i hn)⟩
  cases q <;> simp [Part.same] at hq ⊢

/-- The lines of R216, the delay being `choDelay`. -/
theorem choStep_eq (t : Trig) (nan : Nat → Word) (sr inp : Word) (u : Cho) :
    let buf := bufWrite u.buf u.wptr inp
    let dd := choDelay t nan u
    let k := toInt (floorF dd)
    let a := bufRead buf (ringIndex u.wptr k 4096)
    let b := bufRead buf (ringIndex u.wptr (k + 1) 4096)
    let dl := fAdd (nan 7) a (fMul (nan 6) (fSub (nan 4) dd (floorF dd)) (fSub (nan 5) b a))
    choStep t nan sr inp u =
      (fAdd (nan 14) (fMul (nan 12) inp (fSub (nan 11) 0x3F800000 u.mix)) (fMul (nan 13) dl u.mix),
        { u with
          wptr := (u.wptr + 1) % 4096
          lfoph := wrap (nan 10) (fAdd (nan 9) u.lfoph (fDiv (nan 8) u.rate sr))
          buf := buf }) := by
  simp only [choStep, dryWet, oneF_eq, Nat.reduceAdd, Config.choSize]

/-- Settles O35: the word stored reads back because the memory is canonical, and the two taps read the buffer after the write. -/
theorem chorusStep : Obligations.ChorusStep := by
  refine fun n d s1 s => ⟨refusals_of_onInst_onSample rfl, fun u hs hu hf => ?_⟩
  obtain ⟨-, -, -, hcho, -⟩ := hs
  obtain ⟨-, hwf, -⟩ := hcho u (List.mem_of_getElem? hu)
  have hexec := execCho_next (d := d) hu hf
  rw [choStep_eq] at hexec
  dsimp only
  rw [← choDelay_eq]
  generalize choDelay s.build.trig s.nan u = dd at hexec ⊢
  refine ⟨_, ringIndex u.wptr (toInt (floorF dd)) 4096, ringIndex u.wptr (toInt (floorF dd) + 1) 4096, hexec, ?_,
    ⟨ringIndex_cast _ _ (by decide), ?_, ?_⟩, ⟨_, getElem?_set_same hu⟩, sameListBut_set _ _ _,
    putCho_putX_frame d _ hu fun i hi => bufRead_bufWrite_other _ _ hi⟩
  · rw [word_cho (getElem?_set_same hu)]
    exact bufRead_bufWrite_same hwf _ _
  · rw [ringIndex_cast _ _ (by decide), Nat.cast_add, Nat.cast_one, ← sub_sub]
    rfl
  · rw [word_cho (getElem?_set_same hu), word_cho (getElem?_set_same hu)]
    exact State.putX_getX_same _ _ _

end Sys2Proof.Machine
end

section
/-! PROOF. The wavetable oscillator (44_wavetable.md): WT from its step function, and the blend at the two ends of MORPH, where
its fraction is zero and the differences it scales do not overflow. -/

namespace Sys2Proof.Machine

/-! ### One sample as a blend of two table samples -/

/-- The position `xs` in a table (R243). -/
def wtPosition (b : Build) (nan : Nat → Word) (ph : Word) : Word := fMul (nan 2) (wrap (nan 1) ph) (toF b.tableSize)

/-- Table `t` at the position `xs`, interpolated along the time axis (R244); `draw` numbers the first NaN it can draw. -/
def wtTableSample (b : Build) (nan : Nat → Word) (draw t : Nat) (xs : Word) : Word :=
  let i0 := toInt (floorF xs) % b.tableSize
  lerp (fun k => nan (draw + k)) (fSub (nan 3) xs (floorF xs)) (wtRom b t i0) (wtRom b t ((i0 + 1) % b.tableSize))

theorem wtSample_eq_lerp (b : Build) (nan : Nat → Word) (morph ph : Word) :
    let A := toInt (floorF morph)
    let xs := wtPosition b nan ph
    wtSample b nan morph ph =
      lerp (fun k => nan (10 + k)) (fSub (nan 0) morph (floorF morph)) (wtTableSample b nan 4 A xs)
        (wtTableSample b nan 7 ((A + 1) % b.numTables) xs) := rfl

/-- The state a WT leaves holds the sample in its destination. -/
theorem execWt_getX {n : Nat} {d s1 : Reg} {s t : State} {u : Wt} (hu : s.wt[n]? = some u)
    (hf : isFinite (s.getX s1) = true) (h : exec (.wt n d s1) s = .next t) :
    t.getX d = wtSample s.build s.nan u.morph (s.getX s1) := by
  cases (execWt_next (d := d) hu hf).symm.trans h
  exact State.putX_getX_same _ _ _

theorem putX_drawn_frame (d : Reg) (s : State) (v : Word) : frame [.x, .draws] [d] noStore s (s.putX d v).drawn := by
  refine frame_of_sameBut_of_set (fun q hq => ?_) rfl (by decide)
  cases q <;> simp [Part.same] at hq ⊢

/-- Settles O37: the sample is the blend of two table samples. -/
theorem wavetableSample : Obligations.WavetableSample := by
  refine fun n d s1 s => ⟨refusals_of_onInst_onSample rfl, fun u hu hf =>
    ⟨_, execWt_next hu hf, ?_, putX_drawn_frame d s _⟩⟩
  rw [State.drawn_getX, State.putX_getX_same, wtSample_eq_lerp]
  simp only [wtPosition, wtTableSample, lerp, Nat.add_zero, Nat.reduceAdd]

/-! ### Fractions -/

/-- The fraction of a finite word is in `[-1, 1]`, rounded. -/
theorem fSub_floorF_abs_le_one {nan x : Word} (hx : isFinite x = true) :
    isFinite (fSub nan x (floorF x)) = true ∧ |valueOf (fSub nan x (floorF x))| ≤ 1 := by
  obtain ⟨hf, hv⟩ := valueOf_floorF hx
  rw [← valueOf_one]
  refine (fSub_roundsTo hx hf).abs_valueOf_le (by decide) ?_
  rw [hv, valueOf_one]
  exact (Int.abs_fract (a := valueOf x)).trans_le (Int.fract_lt_one _).le

/-- The fraction of an integral word is zero. -/
theorem valueOf_fSub_floorF_of_nat {nan x : Word} {m : Nat} (hx : isFinite x = true) (hm : valueOf x = m) :
    isFinite (fSub nan x (floorF x)) = true ∧ valueOf (fSub nan x (floorF x)) = 0 := by
  obtain ⟨hf, hv⟩ := valueOf_floorF hx
  have h := fSub_roundsTo (nan := nan) hx hf
  rw [hv, hm, Int.floor_natCast, Int.cast_natCast, sub_self] at h
  exact h.exact (m := 0x00000000) (by decide) valueOf_zero

/-! ### Interpolation -/

theorem absAtMost_ladBound_iff {k : Fin 5} {v : Word} :
    absAtMost (ladBound k) v ↔ isFinite v = true ∧ |valueOf v| ≤ 2 ^ (k : Nat) := by
  obtain ⟨hs, hf⟩ := ladBound_finite k
  rw [absAtMost_iff_abs hs hf, valueOf_ladBound]

/-- A word whose exact value is within a power of two is within it, rounded. -/
theorem roundsTo.absAtMost_ladBound {q : ℚ} {negZero : Bool} {r : Word} (h : roundsTo q negZero r) (k : Fin 5)
    (hq : |q| ≤ 2 ^ (k : Nat)) : absAtMost (ladBound k) r := by
  obtain ⟨-, hf⟩ := ladBound_finite k
  rw [absAtMost_ladBound_iff, ← valueOf_ladBound]
  exact h.abs_valueOf_le hf ((valueOf_ladBound k).symm ▸ hq)

/-- Between words of `[-1, 1]` and with a factor in `[-1, 1]`, no operation of an interpolation leaves `[-4, 4]`. -/
theorem lerp_absAtMost_four {nan : Nat → Word} {k lo hi : Word} (hk : isFinite k = true) (hk1 : |valueOf k| ≤ 1)
    (hlo : absAtMost (ladBound 0) lo) (hhi : absAtMost (ladBound 0) hi) : absAtMost (ladBound 2) (lerp nan k lo hi) := by
  obtain ⟨hd, hd2⟩ := absAtMost_ladBound_iff.mp (fSub_absAtMost_double (k := 0) (nan := nan 0) hhi hlo)
  obtain ⟨hlo, hlo1⟩ := absAtMost_ladBound_iff.mp hlo
  have hprod : |valueOf k * valueOf (fSub (nan 0) hi lo)| ≤ 2 ^ 1 := by
    rw [abs_mul]
    exact (mul_le_of_le_one_left (abs_nonneg _) hk1).trans hd2
  obtain ⟨hm, hm2⟩ := absAtMost_ladBound_iff.mp ((fMul_roundsTo (nan := nan 1) hk hd).absAtMost_ladBound 1 hprod)
  refine (fAdd_roundsTo hlo hm).absAtMost_ladBound 2 ((abs_add_le _ _).trans ((add_le_add hlo1 hm2).trans ?_))
  norm_num

/-- With a zero factor an interpolation gives its first end, the difference of the ends being finite. -/
theorem valueOf_lerp_of_zero {nan : Nat → Word} {k lo hi : Word} (hk : isFinite k = true) (hk0 : valueOf k = 0)
    (hlo : isFinite lo = true) (hd : isFinite (fSub (nan 0) hi lo) = true) :
    isFinite (lerp nan k lo hi) = true ∧ valueOf (lerp nan k lo hi) = valueOf lo := by
  obtain ⟨hm, hm0⟩ := (fMul_roundsTo (nan := nan 1) hk hd).exact hk (by rw [hk0, zero_mul])
  rw [hk0, zero_mul] at hm0
  obtain ⟨hf, hv⟩ := (fAdd_roundsTo (nan := nan 2) hlo hm).exact hlo (by rw [hm0, add_zero])
  exact ⟨hf, hv.trans (by rw [hm0, add_zero])⟩

/-! ### The ends of MORPH -/

/-- The position in a table is finite. -/
theorem isFinite_wtPosition {b : Build} (nan : Nat → Word) (ph : Word) (hb : b.tableSize < 2 ^ 24) :
    isFinite (wtPosition b nan ph) = true := by
  obtain ⟨hw, h0, h1⟩ := unitOpenSet_iff.mp (wrap_mem_unit (nan 1) ph)
  obtain ⟨hs, hv⟩ := valueOf_toF hb
  refine ((fMul_roundsTo hw hs).abs_valueOf_le hs ?_).1
  rw [hv, abs_of_nonneg (mul_nonneg h0 (Nat.cast_nonneg _))]
  exact mul_le_of_le_one_left (Nat.cast_nonneg _) h1.le

theorem wtTableSample_absAtMost_four {b : Build} (nan : Nat → Word) (draw t : Nat) {xs : Word} (hxs : isFinite xs = true)
    (hrom : ∀ i j, absAtMost 0x3F800000 (wtRom b i j)) : absAtMost (ladBound 2) (wtTableSample b nan draw t xs) := by
  obtain ⟨hfr, hfr1⟩ := fSub_floorF_abs_le_one (nan := nan 3) hxs
  rw [wtTableSample]
  exact lerp_absAtMost_four hfr hfr1 (hrom _ _) (hrom _ _)

/-- At an integral MORPH the sample is that of its table, the words of the tables being in `[-1, 1]`. -/
theorem wtSample_of_integral_morph {b : Build} (nan : Nat → Word) {morph : Word} (ph : Word) {A : Nat}
    (hb : b.tableSize < 2 ^ 24) (hrom : ∀ i j, absAtMost 0x3F800000 (wtRom b i j)) (hf : isFinite morph = true)
    (hA : valueOf morph = A) :
    ieeeEq (wtSample b nan morph ph) (wtTableSample b nan 4 A (wtPosition b nan ph)) := by
  have htable : toInt (floorF morph) = A := by rw [toInt_floorF hf, hA, Int.floor_natCast, Int.toNat_natCast]
  have hxs := isFinite_wtPosition nan ph hb
  have hsA := wtTableSample_absAtMost_four nan 4 A hxs hrom
  have hsB := wtTableSample_absAtMost_four nan 7 ((A + 1) % b.numTables) hxs hrom
  have hd := isFinite_of_absAtMost_ladBound (fSub_absAtMost_double (k := 2) (nan := nan 10) hsB hsA)
  have hsA := isFinite_of_absAtMost_ladBound hsA
  obtain ⟨hg, hg0⟩ := valueOf_fSub_floorF_of_nat (nan := nan 0) hf hA
  obtain ⟨hs, hv⟩ := valueOf_lerp_of_zero (nan := fun k => nan (10 + k)) hg hg0 hsA hd
  rw [wtSample_eq_lerp, htable]
  exact (ieeeEq_iff (isNaN_of_isFinite hs) (isNaN_of_isFinite hsA)).mpr hv

/-- MORPH at one of its ends is the number of the first or the last table. -/
theorem valueOf_morph_end {morph : Word} {N : Nat} (hN : N ≤ 256) (h : morph = 0 ∨ morph = toF (N - 1)) :
    isFinite morph = true ∧ valueOf morph = (if morph = 0 then 0 else N - 1 : Nat) := by
  split
  · next h0 => exact h0 ▸ ⟨by decide, valueOf_zero.trans Nat.cast_zero.symm⟩
  · next h0 => exact h.resolve_left h0 ▸ valueOf_toF (by omega)

/-- Settles O39: both ends of MORPH are integral. -/
theorem wavetableMorphEnds : Obligations.WavetableMorphEnds := by
  intro n d s1 s t u hb hrom hu hf hend h
  obtain ⟨⟨-, hN⟩, ⟨-, hsize⟩, -⟩ := hb
  obtain ⟨hm, hA⟩ := valueOf_morph_end hN hend
  rw [execWt_getX hu hf h]
  exact wtSample_of_integral_morph s.nan (s.getX s1) (by omega) hrom hm hA

end Sys2Proof.Machine
end

section
/-! PROOF. The FM operator (45_fm.md): the checks of a command with two sample operands, and FM from its step function. -/

namespace Sys2Proof.Machine

/-! ### The checks of a command with two sample operands -/

/-- Whichever operand is not finite, E_NONFINITE is recorded: both checks answer alike. -/
theorem onSample_onSample_nonfinite {op : BitVec 6} {r1 r2 : Reg} {s : State} {body : Word → Word → Result}
    (h : ∃ r ∈ [r1, r2], isFinite (s.getX r) = false) :
    (onSample op r1 s fun v => onSample op r2 s (body v)) = .next (s.record .nonfinite op) := by
  rcases onSample_cases op r1 s fun v => onSample op r2 s (body v) with ⟨h1, he⟩ | ⟨-, he⟩
  · have h2 : isFinite (s.getX r2) = false := by simpa [h1] using h
    exact he.trans (onSample_nonfinite h2)
  · exact he

/-- The unit number is checked before the operands (60_exceptions.md R356). -/
theorem refusals_of_onInst_onSample_onSample {α : Type} {i : Instr} {us : List α} {n : Nat} {r1 r2 : Reg} {s : State}
    {body : α → Word → Word → Result}
    (h : exec i s = onInst i.opcode us n s fun u => onSample i.opcode r1 s fun v => onSample i.opcode r2 s (body u v)) :
    refusals i us.length n [r1, r2] s :=
  ⟨fun hn => h.trans (onInst_none hn), fun hn hfin =>
    h.trans ((onInst_some (List.getElem?_eq_getElem hn)).trans (onSample_onSample_nonfinite hfin))⟩

/-! ### FM -/

theorem putFm_putX_frame (n : Nat) (d : Reg) (s : State) (u : Fm) (v : Word) :
    frame [.x, .fm, .draws] [d] noStore s ((s.putFm n u).putX d v).drawn := by
  refine frame_of_sameBut_of_set (fun q hq => ?_) rfl (by decide)
  cases q <;> simp [Part.same] at hq ⊢

/-- The lines of R261: LAST takes the output before AMP, at the phase before it advances. -/
theorem fmStep_eq (t : Trig) (nan : Nat → Word) (sr md car : Word) (u : Fm) :
    let a := fAdd (nan 2) (fAdd (nan 0) u.phase md) (fMul (nan 1) u.last u.fbk)
    let out := sinF t (nan 4) (fMul (nan 3) 0x40C90FDB a)
    fmStep t nan sr md car u =
      (fMul (nan 9) out u.amp,
        { u with
          last := out
          phase := wrap (nan 8) (fAdd (nan 7) u.phase (fDiv (nan 6) (fMul (nan 5) u.ratio car) sr)) }) := by
  simp only [fmStep, twoPiF_eq]

/-- Settles O40: the unit stored and the word returned are those of R261, both operands being read before the write. -/
theorem fmSample : Obligations.FmSample := by
  refine fun n d s1 s2 s => ⟨refusals_of_onInst_onSample_onSample rfl, fun u hu h1 h2 => ?_⟩
  have hexec := execFm_next (d := d) hu h1 h2
  rw [fmStep_eq] at hexec
  exact ⟨_, _, hexec, getElem?_set_same hu, rfl, rfl, rfl, rfl, rfl, State.putX_getX_same _ _ _, sameListBut_set _ _ _,
    putFm_putX_frame n d s _ _⟩

end Sys2Proof.Machine
end

section
/-! PROOF. The plucked strings (46_karplus.md): KS and KSF from the step function of each, and what KSF refuses. -/

namespace Sys2Proof.Machine

theorem word_ks {s : State} {n : Nat} {u : Ks} (hu : s.ks[n]? = some u) (i : Nat) :
    s.word (.ks n) i = bufRead u.buf i := by
  simp [State.word, hu]

/-! ### KS -/

theorem putKs_putX_frame {s : State} {n : Nat} {u v : Ks} {stored : Nat → Prop} (d : Reg) (w : Word)
    (hu : s.ks[n]? = some u) (hb : ∀ i, ¬ stored i → bufRead v.buf i = bufRead u.buf i) :
    frame [.x, .ks, .draws] [d] (fun b i => b = .ks n ∧ stored i) s ((s.putKs n v).putX d w).drawn := by
  refine ⟨fun q hq => ?_, sameXBut_of_set rfl, fun b i hn =>
    (word_congr rfl rfl rfl rfl b i).trans (sameWordsBut_putKs hu hb b i hn)⟩
  cases q <;> simp [Part.same] at hq ⊢

/-- The lines of R281: the word at CURSOR is read before it is replaced. -/
theorem ksStep_eq (nan : Nat → Word) (ex : Word) (u : Ks) :
    let out := bufRead u.buf u.cursor
    let flt := fMul (nan 4) u.fb
      (fAdd (nan 3) (fMul (nan 1) out (fSub (nan 0) 0x3F800000 u.damp)) (fMul (nan 2) u.last u.damp))
    ksStep nan ex u =
      (out,
        { u with
          last := out
          cursor := (u.cursor + 1) % u.size
          buf := bufWrite u.buf u.cursor (fAdd (nan 5) ex flt) }) := by
  simp only [ksStep, oneF_eq]

/-- Settles O41: the word stored reads back because the memory is canonical. -/
theorem stringSample : Obligations.StringSample := by
  refine fun n d s1 s => ⟨refusals_of_onInst_onSample rfl, fun u hs hu hf => ?_⟩
  obtain ⟨-, -, -, -, hks⟩ := hs
  obtain ⟨-, -, -, hwf, -⟩ := hks u (List.mem_of_getElem? hu)
  have hexec := execKs_next (d := d) hu hf
  rw [ksStep_eq] at hexec
  rw [word_ks hu]
  refine ⟨_, hexec, ⟨State.putX_getX_same _ _ _, ?_, ⟨_, getElem?_set_same hu⟩⟩, sameListBut_set _ _ _,
    putKs_putX_frame d _ hu fun i hi => bufRead_bufWrite_other _ _ hi⟩
  exact (word_ks (getElem?_set_same hu) _).trans (bufRead_bufWrite_same hwf _ _)

/-! ### KSF -/

theorem ksRetune_of_eq (fq : Word) {m : Nat} {u : Ks} (h : m = u.size) : ksRetune fq m u = { u with freq := fq } :=
  if_pos h

theorem ksRetune_of_ne (fq : Word) {m : Nat} {u : Ks} (h : m ≠ u.size) :
    ksRetune fq m u = { u with freq := fq, size := m, cursor := 0, last := 0, buf := bufClear u.buf m } :=
  if_neg h

/-- A retuning changes only the words a resize clears. -/
theorem bufRead_ksRetune_other (fq : Word) {m i : Nat} {u : Ks} (h : ¬ (m ≠ u.size ∧ i < m)) :
    bufRead (ksRetune fq m u).buf i = bufRead u.buf i := by
  by_cases hm : m = u.size
  · rw [ksRetune_of_eq fq hm]
  · rw [ksRetune_of_ne fq hm]
    exact bufRead_bufClear_ge _ (Nat.le_of_not_lt fun hi => h ⟨hm, hi⟩)

theorem putKs_ksRetune_frame {s : State} {n : Nat} {u : Ks} (fq : Word) (m : Nat) (hu : s.ks[n]? = some u) :
    frame [.ks] [] (fun b i => b = .ks n ∧ m ≠ u.size ∧ i < m) s (s.putKs n (ksRetune fq m u)) := by
  refine ⟨fun q hq => ?_, sameXBut_of_eq rfl, sameWordsBut_putKs hu fun i hi => bufRead_ksRetune_other fq hi⟩
  cases q <;> simp [Part.same] at hq ⊢

theorem execKsf_paramRange {n : Nat} {s1 : Reg} {s : State} {u : Ks} (hu : s.ks[n]? = some u)
    (hp : positiveSet (s.getX s1) = false) : execKsf n s1 s = .next (s.record .paramRange 0x1D) := by
  rw [execKsf, onInst_some hu]
  simp only [hp, Bool.not_false, if_true, raise_eq]

/-- A quotient that is not finite has no period, and a period out of range is no size: both are E_SIZE. -/
theorem execKsf_size {n m : Nat} {s1 : Reg} {s : State} {u : Ks} {v : Word} (hu : s.ks[n]? = some u)
    (hp : positiveSet (s.getX s1) = true) (hv : fDiv (s.nan 0) s.sr (s.getX s1) = v) (hm : roundHalfAway v = m)
    (h : isFinite v = false ∨ m < 1 ∨ s.build.ksMax < m) : execKsf n s1 s = .next (s.record .size 0x1D) := by
  rw [execKsf, onInst_some hu]
  simp only [hp, hv, hm, Bool.not_true, Bool.false_eq_true, if_false, raise_eq]
  cases hf : isFinite v with
  | false => exact if_pos rfl
  | true => exact (if_neg Bool.false_ne_true).trans (if_pos (h.resolve_left (by simp [hf])))

/-- Settles O42: the string stored is `ksRetune`'s, which clears the words below the new size when the size changes. -/
theorem stringRetune : Obligations.StringRetune := by
  refine fun n s1 s => ⟨⟨fun hn => onInst_none hn, fun _ h => by simp at h⟩, fun u hu => ?_⟩
  dsimp only
  generalize hv : fDiv (s.nan 0) s.sr (s.getX s1) = v
  generalize hm : roundHalfAway v = m
  have hpos : positiveSet (s.getX s1) = true ↔ isFinite (s.getX s1) = true ∧ fLt 0x00000000 (s.getX s1) = true :=
    Bool.and_eq_true_iff
  refine ⟨fun hfin hlt hf h1 h2 => ?_, fun hn => execKsf_paramRange hu (Bool.eq_false_iff.mpr fun h => hn (hpos.mp h)),
    fun hfin hlt => execKsf_size hu (hpos.mpr ⟨hfin, hlt⟩) hv hm⟩
  refine ⟨_, execKsf_next hu (hpos.mpr ⟨hfin, hlt⟩) hv hf hm h1 h2, fun heq => ?_, fun hne => ?_, sameListBut_set _ _ _,
    putKs_ksRetune_frame _ m hu⟩
  · rw [ksRetune_of_eq _ heq]
    exact getElem?_set_same hu
  · rw [ksRetune_of_ne _ hne]
    exact ⟨⟨_, getElem?_set_same hu⟩, fun i hi => (word_ks (getElem?_set_same hu) i).trans (bufRead_bufClear_lt _ hi)⟩

end Sys2Proof.Machine
end

section
/-! PROOF. The modulation sources (47_envelope_lfo.md): ENV and LFO from the step function of each, and the bound of an
envelope's level (R302), which comes from the ramp's increment never being a NaN and never negative. -/

namespace Sys2Proof.Machine

/-! ### The ramp's increment -/

section
variable {nan a b : Word}

theorem isFinite_or_isInf (h : isNaN a = false) : isFinite a = true ∨ isInf a = true := by
  rw [isNaN_eq_false_iff] at h
  rw [isFinite_iff, isInf_iff]
  omega

/-- A product of positive words may underflow to `+0.0` or overflow to `+∞`, but has no other sign. -/
theorem fMul_positive (ha : positiveSet a = true) (hb : positiveSet b = true) :
    isNaN (fMul nan a b) = false ∧ signBit (fMul nan a b) = false := by
  obtain ⟨hfa, hpa⟩ := positiveSet_iff.mp ha
  obtain ⟨hfb, hpb⟩ := positiveSet_iff.mp hb
  obtain ⟨hn, -, -, -, hs, -⟩ := fMul_roundsTo (nan := nan) hfa hfb
  exact ⟨hn, hs (mul_pos hpa hpb)⟩

/-- The reciprocal of a word from `+0.0` to `+∞` is one again. -/
theorem fDiv_one_nonneg (hn : isNaN a = false) (hs : signBit a = false) :
    isNaN (fDiv nan oneF a) = false ∧ signBit (fDiv nan oneF a) = false := by
  have hone : isFinite oneF = true ∧ isZero oneF = false ∧ signBit oneF = false := by decide
  obtain ⟨hof, hoz, hos⟩ := hone
  rcases isFinite_or_isInf hn with hf | hi
  · rcases hz : isZero a with _ | _
    · obtain ⟨hr, -, -, -, hpos, hzero⟩ := fDiv_roundsTo (nan := nan) hof hf hz
      have h0 : 0 ≤ valueOf oneF / valueOf a := div_nonneg (valueOf_nonneg hos) (valueOf_nonneg hs)
      refine ⟨hr, ?_⟩
      rcases h0.lt_or_eq with h | h
      · exact hpos h
      · rw [hzero h.symm, hos, hs]; rfl
    · rw [fDiv_zero_right hof hz, hoz, hos, hs, if_neg Bool.false_ne_true]
      decide
  · rw [fDiv_inf_right hof hi, hos, hs]
    decide

/-- `1.0 / (stageTime * sr)` is no NaN and not negative (R303). -/
theorem rampStep_nonneg {nan : Nat → Word} {time sr : Word} (ht : positiveSet time = true) (hsr : positiveSet sr = true) :
    isNaN (rampStep nan time sr) = false ∧ signBit (rampStep nan time sr) = false := by
  obtain ⟨hn, hs⟩ := fMul_positive (nan := nan 0) ht hsr
  exact fDiv_one_nonneg hn hs

/-! ### The level after an increment -/

/-- A result that overflows is positive when the exact one is not negative. -/
theorem roundsTo.nonneg_of_nonneg {q : ℚ} {negZero : Bool} {r : Word} (h : roundsTo q negZero r) (hq : 0 ≤ q) :
    0 ≤ valueOf r := by
  rcases hf : isFinite r with _ | _
  · obtain ⟨-, hfin, -, -, hpos, -⟩ := h
    refine valueOf_nonneg (hpos (hq.lt_of_ne fun h0 => ?_))
    have : |q| < overflowBound := by rw [← h0, overflowBound]; norm_num
    simp [hfin.mpr this] at hf
  · exact h.nonneg hf hq

theorem roundsTo.le_one {q : ℚ} {negZero : Bool} {r : Word} (h : roundsTo q negZero r) (hq : q ≤ 1) : valueOf r ≤ 1 := by
  rcases lt_or_ge q 0 with h0 | h0
  · obtain ⟨-, -, -, hneg, -⟩ := h
    exact (valueOf_nonpos (hneg h0)).trans zero_le_one
  · have hbound := (h.abs_valueOf_le (m := 0x3F800000) (by decide) (by rwa [abs_of_nonneg h0, valueOf_one])).2
    exact (le_abs_self _).trans (hbound.trans_eq valueOf_one)

variable (ha : unitClosedSet a = true) (hn : isNaN b = false) (hs : signBit b = false)
include ha hn hs

theorem fAdd_unit_nonneg : isNaN (fAdd nan a b) = false ∧ 0 ≤ valueOf (fAdd nan a b) := by
  obtain ⟨hfa, h0, -⟩ := unitClosedSet_iff.mp ha
  rcases isFinite_or_isInf hn with hf | hi
  · have hr := fAdd_roundsTo (nan := nan) hfa hf
    exact ⟨hr.1, hr.nonneg_of_nonneg (add_nonneg h0 (valueOf_nonneg hs))⟩
  · rw [fAdd_inf_right hfa hi]
    exact ⟨hn, valueOf_nonneg hs⟩

theorem fSub_unit_le_one : isNaN (fSub nan a b) = false ∧ valueOf (fSub nan a b) ≤ 1 := by
  obtain ⟨hfa, -, h1⟩ := unitClosedSet_iff.mp ha
  rcases isFinite_or_isInf hn with hf | hi
  · have hr := fSub_roundsTo (nan := nan) hfa hf
    exact ⟨hr.1, hr.le_one (by linarith [valueOf_nonneg hs])⟩
  · rw [fSub, fAdd_inf_right hfa (by simpa using hi)]
    exact ⟨by simpa using hn, (valueOf_nonpos (by simpa using hs)).trans zero_le_one⟩

end

/-- A word whose bits stand for a value in `[0, 1]` is finite: infinities and NaNs have larger magnitude bits. -/
theorem unitClosedSet_of_bounds {v : Word} (h0 : 0 ≤ valueOf v) (h1 : valueOf v ≤ 1) :
    unitClosedSet v = true := by
  have hmag : magBits v ≤ magBits 0x3F800000 := by
    rw [← abs_valueOf_le_iff, valueOf_one, abs_one, abs_of_nonneg h0]
    exact h1
  have hone : magBits 0x3F800000 < infMag := by decide
  exact unitClosedSet_iff.mpr ⟨isFinite_iff.mpr (by omega), h0, h1⟩

/-! ### The level stays in `[0, 1]` -/

section
variable {nan : Nat → Word} {sr : Word} {u : Env}

/-- A ramp that climbs from `[0, 1]` and has not reached 1.0 is in `[0, 1]`. -/
theorem unitClosedSet_rise {k b : Word} (hl : unitClosedSet u.level = true) (hn : isNaN b = false) (hs : signBit b = false)
    (h : fLe oneF (fAdd k u.level b) = false) : unitClosedSet (fAdd k u.level b) = true := by
  obtain ⟨hr, h0⟩ := fAdd_unit_nonneg (nan := k) hl hn hs
  rw [← Bool.not_eq_true, oneF_eq, fLe_iff (by decide) hr, valueOf_one, not_le] at h
  exact unitClosedSet_of_bounds h0 h.le

/-- A ramp that falls from `[0, 1]` and is still above its end, itself in `[0, 1]`, is in `[0, 1]`. -/
theorem unitClosedSet_fall {k b e : Word} (hl : unitClosedSet u.level = true) (he : unitClosedSet e = true)
    (hn : isNaN b = false) (hs : signBit b = false) (h : fLe (fSub k u.level b) e = false) :
    unitClosedSet (fSub k u.level b) = true := by
  obtain ⟨hr, h1⟩ := fSub_unit_le_one (nan := k) hl hn hs
  obtain ⟨hfe, h0, -⟩ := unitClosedSet_iff.mp he
  rw [← Bool.not_eq_true, fLe_iff hr (isNaN_of_isFinite hfe), not_le] at h
  exact unitClosedSet_of_bounds (h0.trans h.le) h1

theorem unitClosedSet_zero : unitClosedSet zero = true := by decide

theorem envRamp_level_mem_unit (hu : u.legal) (hl : unitClosedSet u.level = true) (hsr : positiveSet sr = true) (st : Stage) :
    unitClosedSet (envRamp nan sr u st).2 = true := by
  obtain ⟨hatt, hdec, hsus, hrel⟩ := hu
  cases st with
  | off => exact unitClosedSet_zero
  | attack =>
    obtain ⟨hn, hs⟩ := rampStep_nonneg (nan := nan) hatt hsr
    rw [envRamp]
    split
    · decide
    · next h => exact unitClosedSet_rise hl hn hs (Bool.eq_false_iff.mpr h)
  | decay =>
    obtain ⟨hn, hs⟩ := rampStep_nonneg (nan := nan) hdec hsr
    rw [envRamp]
    split
    · exact hsus
    · next h => exact unitClosedSet_fall hl hsus hn hs (Bool.eq_false_iff.mpr h)
  | sustain => exact hsus
  | release =>
    obtain ⟨hn, hs⟩ := rampStep_nonneg (nan := nan) hrel hsr
    rw [envRamp]
    split
    · exact unitClosedSet_zero
    · next h => exact unitClosedSet_fall hl unitClosedSet_zero hn hs (Bool.eq_false_iff.mpr h)

end

theorem envSet_level (u : Env) (p : Nat) (v : Word) : (envSet u p v).level = u.level := by
  unfold envSet
  split <;> rfl

theorem setParam_levelsInUnit {s : State} (u n p : Nat) (v : Word) (h : s.levelsInUnit) :
    (s.setParam u n p v).levelsInUnit := by
  unfold State.setParam
  split
  case h_9 => exact forall_mem_modify h fun u _ hu => (envSet_level u p v).symm ▸ hu
  all_goals exact h

/-- A command keeps every level in `[0, 1]`: only ENV and RESET touch one. -/
theorem effect_levelsInUnit {s t : State} (hlegal : s.unitsLegal) (h : s.levelsInUnit) (he : Effect s t) : t.levelsInUnit := by
  cases he with
  | reset => exact List.forall_mem_map.mpr fun _ _ => unitClosedSet_zero
  | pset => exact setParam_levelsInUnit _ _ _ _ h
  | env g d v hu =>
    exact forall_mem_set h hu fun hl => envRamp_level_mem_unit (hlegal.env _ (List.mem_of_getElem? hu)) hl hlegal.sr _
  | _ => exact h

theorem hardReset_levelsInUnit (s : State) : (hardReset s).levelsInUnit :=
  List.forall_mem_replicate.mpr (.inr unitClosedSet_zero)

/-- Settles O54: the invariant is kept together with the legality of the stage times, SUS and SR. -/
theorem stepKeepsEnvelopeLevels : Obligations.StepKeepsEnvelopeLevels := by
  intro s t hb hp hs h
  obtain ⟨-, -, ht⟩ := step_keeps (P := fun s => buildSound s.build ∧ s.unitsLegal ∧ s.levelsInUnit)
    (fun ⟨hb, hl, hs⟩ => ⟨hb, { hl with }, hs⟩)
    (fun ⟨hb, _, _⟩ => ⟨hb, hardReset_unitsLegal hb, hardReset_levelsInUnit _⟩)
    (fun ⟨hb, hl, hs⟩ he => ⟨(effect_sameConfig he).1 ▸ hb, effect_unitsLegal hl he, effect_levelsInUnit hl hs he⟩)
    ⟨hb, unitsLegal_of_paramsLegal hp, hs⟩ h
  exact ht

/-! ### ENV -/

/-- A command without a sample operand has one check: its unit number. -/
theorem refusals_of_onInst {α : Type} {i : Instr} {us : List α} {n : Nat} {s : State} {body : α → Result}
    (h : exec i s = onInst i.opcode us n s body) : refusals i us.length n [] s :=
  ⟨fun hn => h.trans (onInst_none hn), fun _ hfin => by simp at hfin⟩

theorem putEnv_putX_frame (n : Nat) (d : Reg) (s : State) (u : Env) (v : Word) :
    frame [.x, .env, .draws] [d] noStore s ((s.putEnv n u).putX d v).drawn := by
  refine frame_of_sameBut_of_set (fun q hq => ?_) rfl (by decide)
  cases q <;> simp [Part.same] at hq ⊢

/-! The gate transitions of R301. -/

section
variable {g : Bool} {st : Stage}

theorem gateStage_attack (hg : g = true) (h : st = .off ∨ st = .release) : gateStage g st = .attack := by
  rcases h with h | h <;> rw [hg, h] <;> rfl

/-- A gate held on does not retrigger. -/
theorem gateStage_held (hg : g = true) (h1 : st ≠ .off) (h2 : st ≠ .release) : gateStage g st = st := by
  subst hg
  cases st with
  | off => exact absurd rfl h1
  | release => exact absurd rfl h2
  | _ => rfl

theorem gateStage_off (hg : g = false) (h : st = .off) : gateStage g st = .off := by
  rw [hg, h]
  rfl

theorem gateStage_release (hg : g = false) (h : st ≠ .off) : gateStage g st = .release := by
  subst hg
  cases st with
  | off => exact absurd rfl h
  | _ => rfl

end

/-! Each ramp of R302, with the words of R19 and the increment of R303. -/

section
variable (nan : Nat → Word) (sr : Word) (u : Env)

theorem envRamp_attack :
    let lv := fAdd (nan 2) u.level (fDiv (nan 1) 0x3F800000 (fMul (nan 0) u.att sr))
    envRamp nan sr u .attack = if fLe 0x3F800000 lv then (.decay, 0x3F800000) else (.attack, lv) :=
  rfl

theorem envRamp_decay :
    let lv := fSub (nan 2) u.level (fDiv (nan 1) 0x3F800000 (fMul (nan 0) u.dec sr))
    envRamp nan sr u .decay = if fLe lv u.sus then (.sustain, u.sus) else (.decay, lv) :=
  rfl

theorem envRamp_release :
    let lv := fSub (nan 2) u.level (fDiv (nan 1) 0x3F800000 (fMul (nan 0) u.rel sr))
    envRamp nan sr u .release = if fLe lv 0x00000000 then (.off, 0x00000000) else (.release, lv) :=
  rfl

end

/-- A ramp with an end, by components. -/
theorem components_of_ite {c : Bool} {o : Stage × Word} {st st' : Stage} {lv lv' : Word}
    (h : o = if c then (st, lv) else (st', lv')) : (c = true → o.1 = st ∧ o.2 = lv) ∧ (c = false → o.1 = st' ∧ o.2 = lv') := by
  subst h
  cases c <;> simp

/-- Settles O43: the stage after the gate is `gateStage`'s, and the unit stored takes stage and level from that stage's ramp. -/
theorem envelopeSample : Obligations.EnvelopeSample := by
  refine fun n d g s => ⟨refusals_of_onInst rfl, fun u hu => ?_⟩
  refine ⟨_, envStep s.nan s.sr g u, gateStage g u.stage, execEnv_next hu, getElem?_set_same hu, gateStage_attack, gateStage_held,
    gateStage_off, gateStage_release, fun h => ?_, fun h => ?_, fun h => ?_, fun h => ?_, fun h => ?_, rfl, rfl, rfl, rfl,
    State.putX_getX_same _ _ _, sameListBut_set _ _ _, putEnv_putX_frame n d s _ _⟩
  all_goals dsimp only [envStep]; rw [h]
  · exact ⟨rfl, rfl⟩
  · exact components_of_ite (envRamp_attack _ _ _)
  · exact components_of_ite (envRamp_decay _ _ _)
  · exact ⟨rfl, rfl⟩
  · exact components_of_ite (envRamp_release _ _ _)

/-! ### LFO -/

theorem putLfo_putX_frame (n : Nat) (d : Reg) (s : State) (u : Lfo) (v : Word) :
    frame [.x, .lfo, .draws] [d] noStore s ((s.putLfo n u).putX d v).drawn := by
  refine frame_of_sameBut_of_set (fun q hq => ?_) rfl (by decide)
  cases q <;> simp [Part.same] at hq ⊢

/-- The lines of R311: the output is taken at the phase before it advances. -/
theorem lfoStep_eq (t : Trig) (nan : Nat → Word) (sr : Word) (u : Lfo) :
    lfoStep t nan sr u =
      (sinF t (nan 1) (fMul (nan 0) 0x40C90FDB u.phase),
        { u with phase := wrap (nan 4) (fAdd (nan 3) u.phase (fDiv (nan 2) u.rate sr)) }) := by
  simp only [lfoStep, twoPiF_eq]

/-- Settles O44. -/
theorem lfoSample : Obligations.LfoSample := by
  refine fun n d s => ⟨refusals_of_onInst rfl, fun u hu => ?_⟩
  have hexec := execLfo_next (d := d) hu
  rw [lfoStep_eq] at hexec
  exact ⟨_, hexec, State.putX_getX_same _ _ _, getElem?_set_same hu, sameListBut_set _ _ _, putLfo_putX_frame n d s _ _⟩

end Sys2Proof.Machine
end

section
/-! PROOF. The mixing unit (48_mix.md): FADD, FMUL and SCLIP. -/

namespace Sys2Proof.Machine

/-! ### FADD and FMUL -/

/-- A command without a unit has no unit number to refuse, only a non-finite operand. -/
theorem refusals_of_unitless {i : Instr} {operands : List Reg} {s : State}
    (h : (∃ r ∈ operands, isFinite (s.getX r) = false) → exec i s = .next (s.record .nonfinite i.opcode)) :
    refusals i 1 0 operands s := ⟨fun h0 => absurd h0 (by decide), fun _ => h⟩

theorem execFadd_nonfinite {d s1 s2 : Reg} {s : State} (h : ∃ r ∈ [s1, s2], isFinite (s.getX r) = false) :
    execFadd d s1 s2 s = .next (s.record .nonfinite 0x28) := onSample_onSample_nonfinite h

theorem execFmul_nonfinite {d s1 s2 : Reg} {s : State} (h : ∃ r ∈ [s1, s2], isFinite (s.getX r) = false) :
    execFmul d s1 s2 s = .next (s.record .nonfinite 0x29) := onSample_onSample_nonfinite h

/-- Settles O45. -/
theorem addAndMultiply : Obligations.AddAndMultiply := fun d _ _ s =>
  ⟨refusals_of_unitless execFadd_nonfinite, refusals_of_unitless execFmul_nonfinite, fun h1 h2 =>
    ⟨⟨_, execFadd_next h1 h2, State.putX_getX_same _ _ _, putX_drawn_frame d s _⟩,
      ⟨_, execFmul_next h1 h2, State.putX_getX_same _ _ _, putX_drawn_frame d s _⟩⟩⟩

/-! ### SCLIP -/

/-- `tanhPos` is a zero or positive. -/
theorem tanhPos_sign (t : Trig) (x : Word) : isZero (tanhPos t x) = true ∨ signBit (tanhPos t x) = false := by
  obtain ⟨h0, h1⟩ := tanhPos_bounds t x
  rw [fLe_iff (by decide) (isNaN_of_fLe_left h1), valueOf_zero] at h0
  rcases h : signBit (tanhPos t x) with _ | _
  · exact .inr rfl
  · exact .inl (valueOf_eq_zero_iff.mp (le_antisymm (valueOf_nonpos h) h0))

/-- `tanhF` of a finite word is a zero or has its sign (R13). -/
theorem tanhF_sign {t : Trig} {nan x : Word} (hf : isFinite x = true) :
    isZero (tanhF t nan x) = true ∨ signBit (tanhF t nan x) = signBit x := by
  rcases hz : isZero x with _ | _
  · rw [tanhF_finite hf hz]
    rcases hs : signBit x with _ | _
    · exact tanhPos_sign t x
    · simpa using tanhPos_sign t (negF x)
  · rw [tanhF_zero hz]
    exact .inr rfl

theorem execSclip_nonfinite {d s1 : Reg} {s : State} (h : isFinite (s.getX s1) = false) :
    execSclip d s1 s = .next (s.record .nonfinite 0x2A) := onSample_nonfinite h

/-- Settles O46. -/
theorem softClip : Obligations.SoftClip := by
  refine fun d s1 s => ⟨refusals_of_unitless ?_, fun hf => ?_⟩
  · rintro ⟨r, hr, hn⟩
    obtain rfl := List.mem_singleton.mp hr
    exact execSclip_nonfinite hn
  · refine ⟨_, execSclip_next hf, State.putX_getX_same _ _ _, ?_, ?_, ?_, putX_drawn_frame d s _⟩
    all_goals rw [State.drawn_getX, State.putX_getX_same]
    · exact tanhF_absAtMost_one (isNaN_of_isFinite hf)
    · exact tanhF_sign hf
    · exact tanhF_zero

end Sys2Proof.Machine
end

section
/-! PROOF. Commands and steps always complete (60_exceptions.md R350 to R355): every command answers a next state, in which
either STATUS is as before or an error was recorded and nothing written; so every step does. -/

namespace Sys2Proof.Machine

/-! ### Commands -/

/-- The command completes and leaves STATUS alone, or an error is recorded under `op` and nothing is written. -/
def completes (op : BitVec 6) (s : State) (r : Result) : Prop :=
  ∃ t, r = .next t ∧ (t.status = s.status ∨ ∃ e, t = s.record e op)

section
variable {op : BitVec 6} {s : State}

theorem completes_next {t : State} (h : t.status = s.status) : completes op s (.next t) := ⟨t, rfl, .inl h⟩

theorem completes_raise (e : Err) : completes op s (raise e op s) := ⟨_, rfl, .inr ⟨e, rfl⟩⟩

theorem completes_ite {c : Prop} [Decidable c] {a b : Result} (ha : completes op s a) (hb : completes op s b) :
    completes op s (if c then a else b) := by
  split
  · exact ha
  · exact hb

theorem completes_onInst {α : Type} {us : List α} {n : Nat} {body : α → Result} (h : ∀ u, completes op s (body u)) :
    completes op s (onInst op us n s body) := by
  rcases onInst_cases op us n s body with ⟨u, -, he⟩ | ⟨-, he⟩ <;> rw [he]
  · exact h u
  · exact completes_raise _

theorem completes_onSample {r : Reg} {body : Word → Result} (h : ∀ v, completes op s (body v)) :
    completes op s (onSample op r s body) := by
  rcases onSample_cases op r s body with ⟨-, he⟩ | ⟨-, he⟩ <;> rw [he]
  · exact h _
  · exact completes_raise _

/-- A command of one unit and one sample operand completes when its effect leaves STATUS alone. -/
theorem completes_sampleCommand {α : Type} {us : List α} {n : Nat} {r : Reg} {effect : α → Word → State}
    (h : ∀ u v, (effect u v).status = s.status) :
    completes op s (onInst op us n s fun u => onSample op r s fun v => .next (effect u v)) :=
  completes_onInst fun u => completes_onSample fun v => completes_next (h u v)

end

theorem setParam_status (s : State) (u n p : Nat) (v : Word) : (s.setParam u n p v).status = s.status := by
  unfold State.setParam
  split <;> rfl

theorem execPset_completes (n : Nat) (s1 : Reg) (u p : Nat) (s : State) : completes 0x03 s (execPset n s1 u p s) := by
  refine completes_ite (completes_raise _) (completes_ite (completes_raise _) ?_)
  split
  · exact completes_raise _
  · exact completes_raise _
  · exact completes_ite (completes_next (setParam_status ..)) (completes_raise _)

theorem execPget_completes (n : Nat) (d : Reg) (u p : Nat) (s : State) : completes 0x04 s (execPget n d u p s) := by
  refine completes_ite (completes_raise _) (completes_ite (completes_raise _) ?_)
  split
  · exact completes_raise _
  · exact completes_next rfl

theorem execKsf_completes (n : Nat) (s1 : Reg) (s : State) : completes 0x1D s (execKsf n s1 s) :=
  completes_onInst fun _ => completes_ite (completes_raise _) (completes_ite (completes_raise _)
    (completes_ite (completes_raise _) (completes_next rfl)))

theorem execFadd_completes (d s1 s2 : Reg) (s : State) : completes 0x28 s (execFadd d s1 s2 s) :=
  completes_onSample fun _ => completes_onSample fun _ => completes_next rfl

theorem execFmul_completes (d s1 s2 : Reg) (s : State) : completes 0x29 s (execFmul d s1 s2 s) :=
  completes_onSample fun _ => completes_onSample fun _ => completes_next rfl

theorem execSclip_completes (d s1 : Reg) (s : State) : completes 0x2A s (execSclip d s1 s) :=
  completes_onSample fun _ => completes_next rfl

theorem exec_completes (i : Instr) (s : State) : completes i.opcode s (exec i s) := by
  cases i with
  | nop => exact completes_next rfl
  | reset => exact completes_next rfl
  | prep s1 => exact completes_ite (completes_next rfl) (completes_raise _)
  | pset n s1 u p => exact execPset_completes n s1 u p s
  | pget n d u p => exact execPget_completes n d u p s
  | dlysz n s1 => exact completes_onInst fun _ => completes_ite (completes_raise _) (completes_next rfl)
  | ksf n s1 => exact execKsf_completes n s1 s
  | fm n d s1 s2 =>
    exact completes_onInst fun _ => completes_onSample fun _ => completes_onSample fun _ => completes_next rfl
  | env n d g => exact completes_onInst fun _ => completes_next rfl
  | lfo n d => exact completes_onInst fun _ => completes_next rfl
  | fadd d s1 s2 => exact execFadd_completes d s1 s2 s
  | fmul d s1 s2 => exact execFmul_completes d s1 s2 s
  | sclip d s1 => exact execSclip_completes d s1 s
  | _ => exact completes_sampleCommand fun _ _ => rfl

/-- Settles O15. -/
theorem commandsCompleteOrWriteNothing : Obligations.CommandsCompleteOrWriteNothing := exec_completes

/-! ### Steps -/

/-- A word that is no command raises E_ILLEGAL_OP, which answers a next state as any command does. -/
theorem runCommand_next (w : Word) (s : State) : ∃ t, runCommand w s = .next t := by
  suffices h : ∃ u, execWord w (startedFrom w s) = .next u by
    obtain ⟨u, hu⟩ := h
    exact ⟨finishCommand u, congrArg (mapNext finishCommand) hu⟩
  rw [execWord]
  split
  · next i _ =>
    obtain ⟨u, hu, -⟩ := exec_completes i (startedFrom w s)
    exact ⟨u, hu⟩
  · exact ⟨_, rfl⟩

theorem step_idle {s : State} (hh : s.host = []) : step s = .next s := by
  simp only [step, nextEvent, hh]

theorem step_safe (s : State) : safeStep s := by
  rcases hh : s.host with _ | ⟨⟨op, early⟩ | _, es⟩
  · exact ⟨s, step_idle hh⟩
  · by_cases hop : commandOf op = none ∨ s.status.busy = true
    · exact ⟨_, step_access hh hop⟩
    · rw [not_or, ← Ne, Option.ne_none_iff_exists', Bool.not_eq_true] at hop
      obtain ⟨⟨w, hw⟩, hb⟩ := hop
      rw [safeStep, step, nextEvent, hh]
      simpa only [hb, hw] using runCommand_next w _
  · exact ⟨_, step_hardReset hh⟩

/-- Settles O16. -/
theorem everyStepCompletes : Obligations.EveryStepCompletes := fun s => ⟨step_safe s, step_idle⟩

/-- Settles O5: with nothing overlapping, the command runs right after BUSY rises; with BUSY = 1 the write is refused. -/
theorem stepRunsDecodedCommand : Obligations.StepRunsDecodedCommand := by
  refine fun s w early es hh => ⟨fun i t hes hb hw hexec => ?_, fun hb => ?_⟩
  · rw [step_commandWrite hh hb, runCommand_of_decode hes hw]
    exact congrArg (mapNext finishCommand) hexec
  · rw [step_access hh (.inr hb)]
    exact congrArg Host.Outcome.next (serve_write_cmd_busy (s := { s with host := es }) hb (by decide))

/-! ### The first error -/

theorem record_sameBut (s : State) (e : Err) (op : BitVec 6) : sameBut [.status] s (s.record e op) := by
  intro p hp
  cases p <;> simp [Part.same] at hp ⊢

/-- Settles O14. -/
theorem firstErrorKept : Obligations.FirstErrorKept := fun s e op =>
  ⟨record_sameBut s e op, recordError_first e op, recordError_later e op, rfl, rfl, rfl, rfl, rfl, rfl, rfl, rfl, rfl⟩

end Sys2Proof.Machine
end

section
/-! PROOF. Hardware reset and RESET (70_reset_and_hazards.md): the value of every state element after the reset input (R390), what
RESET clears and keeps (R393), and that the reset state meets the invariants. -/

namespace Sys2Proof.Machine

/-! ### The coefficients after reset -/

/-- The angle of FC = 1000 at 44100 Hz: no operand is special, so no NaN is drawn. -/
theorem svfAngle_reset (nan : Nat → Word) : svfAngle nan srReset svfReset.fc = 0x3D91E531 := by
  have hc : minF svfReset.fc (fMul (nan 0) k049 srReset) = 0x447A0000 := by
    rw [fMul_finite (by decide) (by decide)]
    decide +kernel
  have hp : fMul (nan 1) piF 0x447A0000 = 0x4544597C := by
    rw [fMul_finite (by decide) (by decide)]
    decide +kernel
  simp only [svfAngle, hc, hp]
  rw [fDiv_finite (by decide) (by decide) (by decide)]
  decide +kernel

theorem svfResetDerived_f (t : Trig) (nan : Nat → Word) (n : Nat) :
    (svfResetDerived t nan n).f =
      fMul (nan (svfDeriveSites * n + 4)) 0x40000000 (sinF t (nan (svfDeriveSites * n + 3)) 0x3D91E531) := by
  simp only [svfResetDerived, svfDerive, svfAngle_reset, twoF_eq]

/-! ### The reset input -/

/-- Every buffer word of a reset state is 0.0: no memory lists an entry. -/
theorem hardReset_word (s : State) (b : BufId) (i : Nat) : (hardReset s).word b i = 0 := by
  cases b with
  | dly n | cho n | ks n =>
    simp only [State.word, hardReset, State.resetWith, List.getElem?_replicate]
    split <;> rfl
  | comb c | ap a => simp [State.word, hardReset, State.resetWith, revReset, combReset, apReset, Memory.unlisted]

theorem revReset_cursors :
    (∀ c : Fin 8, revReset.combs[c].lo = 0 ∧ revReset.combs[c].idx = 0) ∧ ∀ a : Fin 4, revReset.aps[a].idx = 0 := by decide

theorem statusWord_reset : statusWord statusReset = 0 := by decide

/-- Settles O18: every unit of the next state is its class's reset value. -/
theorem hardwareResetFromAnyState : Obligations.HardwareResetFromAnyState := by
  refine fun s es hh => ⟨_, step_hardReset hh, fun r => ?_, rfl, statusWord_reset, rfl, List.forall_mem_map.mpr fun n _ => ?_,
    List.forall_mem_replicate.mpr (.inr ⟨rfl, rfl, rfl⟩), ⟨rfl, rfl, rfl, rfl, rfl, revReset_cursors⟩,
    List.forall_mem_replicate.mpr (.inr ⟨rfl, rfl, rfl, rfl, rfl⟩),
    List.forall_mem_replicate.mpr (.inr ⟨rfl, rfl, rfl, rfl, rfl, rfl⟩), List.forall_mem_replicate.mpr (.inr rfl),
    List.forall_mem_replicate.mpr (.inr ⟨rfl, rfl, rfl, rfl, rfl⟩),
    List.forall_mem_replicate.mpr (.inr ⟨rfl, rfl, rfl, rfl, rfl, rfl⟩),
    List.forall_mem_replicate.mpr (.inr ⟨rfl, rfl, rfl, rfl, rfl, rfl⟩),
    List.forall_mem_replicate.mpr (.inr ⟨rfl, rfl⟩), hardReset_word _, hardReset_sameConfig _⟩
  · exact Vector.getElem_replicate _
  · exact ⟨rfl, rfl, rfl, rfl, rfl, rfl, svfResetDerived_qc _ _ n,
      fun k => Config.freeNaN s.draws (svfDeriveSites * n + (3 + k)), svfResetDerived_f _ _ n⟩

/-! ### RESET -/

/-- The unit at an index after every unit is cleared. -/
theorem getElem?_map_of_some {α : Type} {us : List α} {n : Nat} {u : α} (f : α → α) (h : us[n]? = some u) :
    (us.map f)[n]? = some (f u) := by rw [List.getElem?_map, h, Option.map_some]

theorem softReset_sameBut (s : State) : sameBut [.svf, .lad, .rev, .dly, .cho, .fm, .ks, .env, .lfo] s (softReset s) := by
  intro p hp
  cases p <;> simp [Part.same, softReset] at hp ⊢

theorem softReset_comb (s : State) (c : Fin 8) : (softReset s).rev.combs[c] = { lo := zero, idx := 0, buf := [] } :=
  Vector.getElem_replicate _

theorem softReset_ap (s : State) (a : Fin 4) : (softReset s).rev.aps[a] = { idx := 0, buf := [] } :=
  Vector.getElem_replicate _

/-- Settles O20: RESET maps each class's clear over its units. -/
theorem resetClearsTransientState : Obligations.ResetClearsTransientState := by
  refine fun s => ⟨softReset s, rfl, fun n u hu => getElem?_map_of_some svfClear hu,
    fun n u hu => getElem?_map_of_some ladClear hu, fun c => ?_, fun a => ?_, ⟨rfl, rfl, rfl, rfl, rfl⟩, fun n u hu => ?_,
    fun n u hu => ?_, fun n u hu => getElem?_map_of_some fmClear hu, fun n u hu => ?_,
    fun n u hu => getElem?_map_of_some envClear hu, fun n u hu => getElem?_map_of_some lfoClear hu, softReset_sameBut s⟩
  · have hc := softReset_comb s c
    exact ⟨congrArg Comb.lo hc, congrArg Comb.idx hc, fun i => congrArg (fun v => bufRead (Comb.buf v) i) hc⟩
  · have ha := softReset_ap s a
    exact ⟨congrArg Allpass.idx ha, fun i => congrArg (fun v => bufRead (Allpass.buf v) i) ha⟩
  · have ht := getElem?_map_of_some dlyClear hu
    exact ⟨⟨_, ht⟩, fun i hi => (word_dly ht i).trans (bufRead_bufClear_lt _ hi)⟩
  · have ht := getElem?_map_of_some choClear hu
    exact ⟨⟨_, ht⟩, fun i => (word_cho ht i).trans (bufRead_nil i)⟩
  · have ht := getElem?_map_of_some ksClear hu
    exact ⟨⟨_, ht⟩, fun i hi => (word_ks ht i).trans (bufRead_bufClear_lt _ hi)⟩

/-! ### The invariants at reset -/

/-- The reset state is a hardware reset of the reference block. -/
theorem hardReset_reference : hardReset { State.reset with draws := 0 } = State.reset := by
  simp [hardReset, State.reset, State.resetWith, countsReference]

theorem buildReference_sound : buildSound buildReference := by decide

/-- Settles O55: hardware reset establishes each invariant in every sound build, the reference build among them. -/
theorem resetMeetsInvariants : Obligations.ResetMeetsInvariants := by
  unfold Obligations.ResetMeetsInvariants
  rw [← hardReset_reference]
  exact ⟨hardReset_buffersSound buildReference_sound, paramsLegal_of_unitsLegal (hardReset_unitsLegal buildReference_sound),
    ⟨rfl, fun _ => ⟨rfl, rfl⟩, fun he => nomatch he⟩, hardReset_levelsInUnit _, by decide,
    List.forall_mem_replicate.mpr (.inr (Lad.bounded_zeros 0))⟩

end Sys2Proof.Machine
end
